-- ==== Sys2Proof/Word.lean ====
section
/-! DEFINITION. The widths the spec names: the byte, the 16-bit word, the 32-bit op word, and the 72-byte frame. -/

namespace Sys2Proof

/-- A byte is 8 bits (00_scope.md R10). -/
abbrev Byte := BitVec 8

/-- A word is 16 bits (00_scope.md R10): a CSR value, a frame field, a filter sample. -/
abbrev Word := BitVec 16

/-- An op is one 32-bit word (30_encoding.md R80). -/
abbrev OpWord := BitVec 32

/-- A candidate frame is exactly 72 bytes, offsets 0 to 71 (30_encoding.md R87). -/
abbrev Frame := Vector Byte 72

end Sys2Proof
end

