-- ==== Sys2Proof/Config.lean ====
section
/-! DEFINITION. The implementation parameters of 00_scope.md R8, their constraints, and the configuration of this
hardware with its OPEN values left opaque. -/

namespace Sys2Proof

/-- The five commands, in the order 30_encoding.md R81 numbers them. -/
inductive Command where
  | enableTelemetry
  | disableTelemetry
  | operate
  | standby
  | off
deriving DecidableEq, Repr

/-- The command ids 0 to 4 (30_encoding.md R81). -/
def Command.id : Command → BitVec 3
  | .enableTelemetry => 0#3
  | .disableTelemetry => 1#3
  | .operate => 2#3
  | .standby => 3#3
  | .off => 4#3

/-- Every command, in id order. -/
def Command.all : List Command :=
  [.enableTelemetry, .disableTelemetry, .operate, .standby, .off]

/-- CMD_BODY[0..4]: each command's bytes without the checksum byte (43_command_encoder.md R190). -/
structure CmdTable where
  enableTelemetry : List Byte
  disableTelemetry : List Byte
  operate : List Byte
  standby : List Byte
  off : List Byte
deriving DecidableEq, Repr

/-- CMD_BODY[c]. -/
def CmdTable.body (t : CmdTable) : Command → List Byte
  | .enableTelemetry => t.enableTelemetry
  | .disableTelemetry => t.disableTelemetry
  | .operate => t.operate
  | .standby => t.standby
  | .off => t.off

/-- The parameters of 00_scope.md R8 as plain data, not yet checked. L_MAX is not stored: R8 gives it as the longest
CMD_BODY plus 1. -/
structure Params where
  /-- N_MAX, the capacity of each filter window. -/
  nMax : Nat
  /-- N_RESET, the window length of every channel after reset. -/
  nReset : Nat
  /-- CMD_BODY. -/
  cmdBody : CmdTable
  /-- TXQ_DEPTH, the TX FIFO's capacity in bytes. -/
  txqDepth : Nat
deriving DecidableEq, Repr

/-- L_MAX: the longest command datagram, checksum byte included (00_scope.md R8). -/
def Params.lMax (p : Params) : Nat :=
  (Command.all.map fun c => (p.cmdBody.body c).length).foldr max 0 + 1

/-- 1 <= N_MAX <= 15. -/
def Params.nMaxOk (p : Params) : Bool := decide (1 ≤ p.nMax) && decide (p.nMax ≤ 15)

/-- 1 <= N_RESET <= N_MAX. -/
def Params.nResetOk (p : Params) : Bool := decide (1 ≤ p.nReset) && decide (p.nReset ≤ p.nMax)

/-- Byte 0 of every CMD_BODY is 0x55, so no body is empty (43_command_encoder.md R190). -/
def Params.bodiesOk (p : Params) : Bool := Command.all.all fun c => (p.cmdBody.body c).head? == some 0x55#8

/-- L_MAX <= TXQ_DEPTH <= 65535. -/
def Params.txqDepthOk (p : Params) : Bool := decide (p.lMax ≤ p.txqDepth) && decide (p.txqDepth ≤ 65535)

/-- Every constraint of 00_scope.md R8. "A configuration that breaks a stated constraint is ill-formed." -/
def Params.wf (p : Params) : Bool := p.nMaxOk && p.nResetOk && p.bodiesOk && p.txqDepthOk

/-- A configuration: parameters that meet every constraint. Ill-formed parameters cannot be made into one, which is how
the model refuses them (00_scope.md R8; 93_implementation_defined.md I27). -/
structure Config where
  params : Params
  ok : params.wf = true
deriving DecidableEq, Repr

/-- The configuration with these parameters, or none where they break a constraint (00_scope.md R8). -/
def Config.ofParams? (p : Params) : Option Config :=
  if h : p.wf = true then some ⟨p, h⟩ else none

/-- N_MAX. -/
abbrev Config.nMax (c : Config) : Nat := c.params.nMax

/-- N_RESET. -/
abbrev Config.nReset (c : Config) : Nat := c.params.nReset

/-- CMD_BODY[x]. -/
abbrev Config.body (c : Config) (x : Command) : List Byte := c.params.cmdBody.body x

/-- TXQ_DEPTH. -/
abbrev Config.txqDepth (c : Config) : Nat := c.params.txqDepth

/-! ## This hardware's configuration -/

/-- OPEN (D14, log entry 2): the bytes of each CMD_BODY after the leading 0x55. No value of it can be proved. -/
opaque Config.openBodyTail : Command → List Byte

/-- OPEN (D15, log entry 3): the FIFO capacity that is used where L_MAX exceeds 64. No value of it can be proved. -/
opaque Config.openTxqDepth : Nat

/-- A CMD_BODY of this hardware: the leading 0x55 the spec gives, then the open bytes, no more of them than the
constraint L_MAX <= TXQ_DEPTH <= 65535 admits. -/
def Config.hardwareBody (c : Command) : List Byte := 0x55#8 :: (Config.openBodyTail c).take 65533

/-- CMD_BODY of this hardware. -/
def Config.hardwareTable : CmdTable where
  enableTelemetry := Config.hardwareBody .enableTelemetry
  disableTelemetry := Config.hardwareBody .disableTelemetry
  operate := Config.hardwareBody .operate
  standby := Config.hardwareBody .standby
  off := Config.hardwareBody .off

/-- TXQ_DEPTH is 64 unless L_MAX > 64, then open between L_MAX and 65535 (00_scope.md R8). -/
def Config.hardwareDepth (lMax : Nat) : Nat :=
  if lMax ≤ 64 then 64 else max lMax (min Config.openTxqDepth 65535)

/-- The parameters of this hardware: N_MAX = 10 and N_RESET = 10 (00_scope.md R8, D6), the rest OPEN. -/
def Config.hardwareParams : Params where
  nMax := 10
  nReset := 10
  cmdBody := Config.hardwareTable
  txqDepth := Config.hardwareDepth (Params.lMax ⟨10, 10, Config.hardwareTable, 0⟩)

theorem Config.hardwareBody_length_le (c : Command) : (Config.hardwareBody c).length ≤ 65534 := by
  simp [Config.hardwareBody]

theorem Config.hardware_lMax_le : Config.hardwareParams.lMax ≤ 65535 := by
  have h := Config.hardwareBody_length_le
  simp only [Params.lMax, Command.all, Config.hardwareParams, Config.hardwareTable, CmdTable.body, List.map_cons,
    List.map_nil, List.foldr_cons, List.foldr_nil]
  have h0 := h .enableTelemetry
  have h1 := h .disableTelemetry
  have h2 := h .operate
  have h3 := h .standby
  have h4 := h .off
  omega

theorem Config.hardware_wf : Config.hardwareParams.wf = true := by
  have hl := Config.hardware_lMax_le
  have hd : Config.hardwareParams.txqDepthOk = true := by
    have he : Config.hardwareParams.txqDepth = Config.hardwareDepth Config.hardwareParams.lMax := rfl
    simp only [Params.txqDepthOk, he, Config.hardwareDepth, Bool.and_eq_true, decide_eq_true_eq]
    split <;> omega
  have hb : Config.hardwareParams.bodiesOk = true := by
    simp [Params.bodiesOk, Config.hardwareParams, Command.all, CmdTable.body, Config.hardwareTable,
      Config.hardwareBody]
  have hn : Config.hardwareParams.nMaxOk = true := rfl
  have hr : Config.hardwareParams.nResetOk = true := rfl
  rw [Params.wf, hn, hr, hb, hd]
  rfl

/-- The configuration of this hardware. -/
def Config.hardware : Config := ⟨Config.hardwareParams, Config.hardware_wf⟩

end Sys2Proof
end

