-- ==== Sys2Proof/Syntax.lean ====
section
/-! DEFINITION. The operations of the core, one constructor per row of spec/opcode_table.json, the error causes, and
the verdict of the decoder. -/

namespace Sys2Proof

/-- The operations of the core. The first nine carry an op word; TX_POP and RESET are steps of a port and carry none
(30_encoding.md R81, R86). -/
inductive Instr where
  /-- NOP (44_host_ops.md R210). -/
  | nop
  /-- BYTE_IN B: one received byte (40_framer.md R110). -/
  | byteIn (b : Byte)
  /-- CMD ENABLE_TLM (43_command_encoder.md R192). -/
  | cmdEnableTlm
  /-- CMD DISABLE_TLM (43_command_encoder.md R193). -/
  | cmdDisableTlm
  /-- CMD OPERATE (43_command_encoder.md R194). -/
  | cmdOperate
  /-- CMD STANDBY (43_command_encoder.md R195). -/
  | cmdStandby
  /-- CMD OFF (43_command_encoder.md R196). -/
  | cmdOff
  /-- CSR_READ A (44_host_ops.md R212). -/
  | csrRead (a : BitVec 8)
  /-- CSR_WRITE A, D (44_host_ops.md R214). -/
  | csrWrite (a : BitVec 8) (d : Word)
  /-- TX_POP: the transport takes a byte (43_command_encoder.md R197). -/
  | txPop
  /-- RESET: the reset pin (70_reset_and_hazards.md R270). -/
  | reset
deriving DecidableEq, Repr

/-- The six error causes the core can raise (60_exceptions.md R240). Code 0, NONE, is the absence of a cause; codes 7
to 15 are never produced. -/
inductive Cause where
  | illegalOp
  | illegalCmd
  | csrUnmapped
  | csrReadOnly
  | csrBadValue
  | txDrop
deriving DecidableEq, Repr

/-- What decoding an op word gives: an op, or an illegal verdict with its cause (30_encoding.md R82). -/
inductive Verdict where
  | op (i : Instr)
  | illegal (c : Cause)
deriving DecidableEq, Repr

end Sys2Proof
end

