-- ==== Sys2Proof/WellFormed.lean ====
section
/-! DEFINITION. Which terms of Instr are ops of the op port. The constraints on the parameters are Params.wf in
Config.lean; every operand is typed by its width, so no operand can be out of range. -/

namespace Sys2Proof

/-- An instruction is well formed as an op word unless it is a port step: "Neither has an op code" (30_encoding.md
R86). -/
def Instr.wellFormed : Instr → Bool
  | .nop | .byteIn _ | .cmdEnableTlm | .cmdDisableTlm | .cmdOperate | .cmdStandby | .cmdOff => true
  | .csrRead _ | .csrWrite _ _ => true
  | .txPop | .reset => false

end Sys2Proof
end

