-- ==== Sys2Proof/Decode.lean ====
section
/-! DEFINITION. Decoding an op word, total over all 32-bit words, and the encoder written from the same table
(30_encoding.md R80 to R84). -/

namespace Sys2Proof

/-! ## Fields of the op word (30_encoding.md R80) -/

/-- OP, bits 31:28. -/
def opField (w : OpWord) : BitVec 4 := w.extractLsb' 28 4

/-- Bits 27:0, everything below OP. -/
def belowOp (w : OpWord) : BitVec 28 := w.extractLsb' 0 28

/-- Bits 27:24, reserved in every op. -/
def reservedField (w : OpWord) : BitVec 4 := w.extractLsb' 24 4

/-- Bits 27:8, reserved in BYTE_IN. -/
def aboveByte (w : OpWord) : BitVec 20 := w.extractLsb' 8 20

/-- Bits 27:3, reserved in CMD_ENCODE. -/
def aboveCmd (w : OpWord) : BitVec 25 := w.extractLsb' 3 25

/-- A, bits 23:16, the CSR address. -/
def aField (w : OpWord) : BitVec 8 := w.extractLsb' 16 8

/-- D, bits 15:0, the CSR write data. -/
def dField (w : OpWord) : Word := w.extractLsb' 0 16

/-- B, bits 7:0, the received byte. -/
def bField (w : OpWord) : Byte := w.extractLsb' 0 8

/-- C, bits 2:0, the command id. -/
def cField (w : OpWord) : BitVec 3 := w.extractLsb' 0 3

/-! ## Decoding -/

/-- The op of command id c, or ILLEGAL_CMD for 5 to 7 (30_encoding.md R82). -/
def decodeCmd (c : BitVec 3) : Verdict :=
  if c = 0#3 then .op .cmdEnableTlm
  else if c = 1#3 then .op .cmdDisableTlm
  else if c = 2#3 then .op .cmdOperate
  else if c = 3#3 then .op .cmdStandby
  else if c = 4#3 then .op .cmdOff
  else .illegal .illegalCmd

/-- decode(w) of 30_encoding.md R82: the op code, then the reserved bits, then the command id (60_exceptions.md
R242). -/
def decode (w : OpWord) : Verdict :=
  if opField w = 0x0#4 then
    if belowOp w = 0#28 then .op .nop else .illegal .illegalOp
  else if opField w = 0x1#4 then
    if aboveByte w = 0#20 then .op (.byteIn (bField w)) else .illegal .illegalOp
  else if opField w = 0x2#4 then
    if aboveCmd w = 0#25 then decodeCmd (cField w) else .illegal .illegalOp
  else if opField w = 0x3#4 then
    if reservedField w = 0#4 ∧ dField w = 0#16 then .op (.csrRead (aField w)) else .illegal .illegalOp
  else if opField w = 0x4#4 then
    if reservedField w = 0#4 then .op (.csrWrite (aField w) (dField w)) else .illegal .illegalOp
  else .illegal .illegalOp

/-- The instruction of an opcode-table word, or none where the word is illegal. The op word is the first and only word;
bits above the row's are 0. -/
def decodeTableWord (nbits w : Nat) : Option Instr :=
  if nbits ≤ 32 then
    match decode (BitVec.ofNat 32 w) with
    | .op i => some i
    | .illegal _ => none
  else none

/-! ## Encoding -/

/-- The word of a CMD_ENCODE op: OP = 0x2, bits 27:3 zero, C (30_encoding.md R81). -/
def encodeCmdWord (c : Command) : OpWord := 0x2#4 ++ 0#25 ++ c.id

/-- The op word of an instruction, from the patterns of 30_encoding.md R81; the two port steps have none (R86). -/
def encode : Instr → Option OpWord
  | .nop => some (0x0#4 ++ 0#28)
  | .byteIn b => some (0x1#4 ++ 0#20 ++ b)
  | .cmdEnableTlm => some (encodeCmdWord .enableTelemetry)
  | .cmdDisableTlm => some (encodeCmdWord .disableTelemetry)
  | .cmdOperate => some (encodeCmdWord .operate)
  | .cmdStandby => some (encodeCmdWord .standby)
  | .cmdOff => some (encodeCmdWord .off)
  | .csrRead a => some (0x3#4 ++ 0#4 ++ a ++ 0#16)
  | .csrWrite a d => some (0x4#4 ++ 0#4 ++ a ++ d)
  | .txPop => none
  | .reset => none

end Sys2Proof
end

