-- ==== Sys2Proof/Machine/State.lean ====
section
/-! DEFINITION. The state of the core (10_state.md R20 to R31, R49, R50), the reasons a step could stop, and the state
after reset. -/

namespace Sys2Proof.Machine

/-! ## Framer -/

/-- dec_state: IDLE = 0, ACC = 1 (10_state.md R22). -/
inductive DecState where
  | idle
  | acc
deriving DecidableEq, Repr

/-! ## Record latch -/

/-- rec, the fields of the last valid frame (10_state.md R25). -/
structure Record where
  status : BitVec 4
  suppress : Bool
  temp : Word
  fan : BitVec 4
  band : BitVec 4
  err : Byte
  errPresent : Bool
  drive : Word
  out : Word
  refl : Word
  swr : Word
  dc : Word
deriving DecidableEq, Repr

/-- Every field 0, the reset value of rec (10_state.md R25). -/
def Record.zero : Record where
  status := 0#4
  suppress := false
  temp := 0#16
  fan := 0#4
  band := 0#4
  err := 0#8
  errPresent := false
  drive := 0#16
  out := 0#16
  refl := 0#16
  swr := 0#16
  dc := 0#16

/-! ## Filter banks -/

/-- The five channels, DRIVE 0, REFL 1, OUT 2, DC 3, SWR 4 (00_scope.md R13). -/
inductive Channel where
  | drive
  | refl
  | out
  | dc
  | swr
deriving DecidableEq, Repr

/-- One channel's window: win[ch][0..N_MAX-1], wc[ch] and N[ch] (10_state.md R27, R28, R29). -/
structure Bank where
  win : List Word
  wc : BitVec 4
  n : BitVec 4
deriving DecidableEq, Repr

/-- The five windows (10_state.md R27). -/
structure Banks where
  drive : Bank
  refl : Bank
  out : Bank
  dc : Bank
  swr : Bank
deriving DecidableEq, Repr

/-! ## Event log -/

/-- An event of the log (10_state.md R49). -/
inductive Event where
  /-- FrameOk(f): the 72 bytes of a valid frame. -/
  | frameOk (f : Frame)
  /-- BadSum: a candidate frame rejected by the checksum. -/
  | badSum
  /-- BadTag: an acquisition abandoned at the type tag. -/
  | badTag
  /-- TxEnq(d): the bytes of a command datagram put into the TX FIFO. -/
  | txEnq (d : List Byte)
  /-- TxByte(b): the byte the transport took. -/
  | txByte (b : Byte)
  /-- Err(c): an error cause. -/
  | err (c : Cause)
  /-- Read(a, v): CSR_READ at a returned v. -/
  | read (a : BitVec 8) (v : Word)
deriving DecidableEq, Repr

/-! ## Inputs of the core (log entry 4) -/

/-- What the host, the transport and the reset pin do in one clock cycle (30_encoding.md R86; 70_reset_and_hazards.md
R270, R280). -/
inductive Cycle where
  /-- The reset pin is low: the word on the op port, if any, and whether the transport holds tx_ready. -/
  | run (op : Option OpWord) (txReady : Bool)
  /-- The reset pin is asserted, whatever word the op port presents. -/
  | reset (op : Option OpWord)
deriving DecidableEq, Repr

/-! ## State -/

/-- The state of the core: the tuple of 10_state.md R21, the read data register of R50, the configuration, which no step
changes (log entry 1), and the cycles the outside world will drive (log entry 4). -/
structure State where
  /-- dec_state (10_state.md R22). -/
  decState : DecState
  /-- dec_cur, an integer 0..71 (10_state.md R23). -/
  decCur : Fin 72
  /-- fb, the frame buffer (10_state.md R24). -/
  fb : Frame
  /-- rec, the record latch (10_state.md R25). -/
  record : Record
  /-- rec_valid (10_state.md R26). -/
  recValid : Bool
  /-- win, wc and N of the five channels (10_state.md R27, R28, R29). -/
  banks : Banks
  /-- cnt_ok (10_state.md R30). -/
  cntOk : Word
  /-- cnt_badsum (10_state.md R30). -/
  cntBadsum : Word
  /-- cnt_badtag (10_state.md R30). -/
  cntBadtag : Word
  /-- err (10_state.md R30). -/
  err : Bool
  /-- err_cause; none is code 0, NONE (10_state.md R30; 60_exceptions.md R240). -/
  errCause : Option Cause
  /-- txq, the TX FIFO, its head first (10_state.md R30). -/
  txq : List Byte
  /-- log, oldest event first (10_state.md R49). -/
  log : List Event
  /-- rdata, the value of the last CSR_READ (10_state.md R50). -/
  rdata : Word
  /-- The configuration, constant (00_scope.md R8; log entry 1). -/
  cfg : Config
  /-- The model's own field: the clock cycles still to come, the next one first (log entry 4). -/
  port : List Cycle
deriving DecidableEq, Repr

/-- A fault stops the machine. The core has none: "Errors are precise and do not trap" (60_exceptions.md R244), so there
is no constructor, nobody raises one, and no claim can rest on a stop. Safe. -/
inductive Fault where
deriving DecidableEq, Repr

/-- A refusal is a step the model gives no meaning. -/
inductive Refusal where
  /-- Raised by exec alone, in the arm of an instruction that has no meaning yet. Safe: nothing can be proved of that
  instruction. No arm raises it now. -/
  | notModelled (mnemonic : String)
deriving DecidableEq, Repr

/-! ## Reset -/

/-- A window of configuration c after reset: N_MAX slots of 0, cursor 0, length N_RESET (10_state.md R27 to R29). -/
def Bank.initial (c : Config) : Bank where
  win := List.replicate c.nMax 0#16
  wc := 0#4
  n := BitVec.ofNat 4 c.nReset

/-- The state after reset of a core with configuration c, with an empty log and nothing presented yet
(70_reset_and_hazards.md R270; 10_state.md R49). -/
def State.initial (c : Config) : State where
  decState := .idle
  decCur := 0
  fb := Vector.replicate 72 0#8
  record := Record.zero
  recValid := false
  banks := ⟨Bank.initial c, Bank.initial c, Bank.initial c, Bank.initial c, Bank.initial c⟩
  cntOk := 0#16
  cntBadsum := 0#16
  cntBadtag := 0#16
  err := false
  errCause := none
  txq := []
  log := []
  rdata := 0#16
  cfg := c
  port := []

/-- The state of this hardware after reset. -/
def State.reset : State := State.initial Config.hardware

end Sys2Proof.Machine
end

