-- ==== Sys2Proof/Machine/Flags.lean ====
section
/-! DEFINITION. The flags: the record flags, the STATUS word, the cause codes, and the output signals. -/

namespace Sys2Proof.Machine

/-- rec.suppress = (status = 10) (41_extractor.md R149). -/
def suppressFlag (status : BitVec 4) : Bool := decide (status = 10#4)

/-- rec.err_present: any value of fb[66] but 0xFF (41_extractor.md R146). -/
def errPresentFlag (e : Byte) : Bool := decide (e ≠ 0xFF#8)

/-- dec_state as a bit: IDLE = 0, ACC = 1 (10_state.md R22). -/
def DecState.bit : DecState → BitVec 1
  | .idle => 0#1
  | .acc => 1#1

/-- The cause codes 1 to 6 (60_exceptions.md R240). -/
def causeCode : Cause → BitVec 4
  | .illegalOp => 1#4
  | .illegalCmd => 2#4
  | .csrUnmapped => 3#4
  | .csrReadOnly => 4#4
  | .csrBadValue => 5#4
  | .txDrop => 6#4

/-- The 4-bit value of err_cause, 0 for NONE (60_exceptions.md R240). -/
def errCauseCode : Option Cause → BitVec 4
  | none => 0#4
  | some c => causeCode c

/-- The read value of STATUS, `{dec_cur[7:0], 0b00000, err, rec_valid, dec_state}` (10_state.md R34). -/
def statusWord (s : State) : Word :=
  BitVec.ofNat 8 s.decCur.val ++ 0#5 ++ BitVec.ofBool s.err ++ BitVec.ofBool s.recValid ++ s.decState.bit

/-! ## Output signals (10_state.md R50) -/

/-- evt_err is the level of err. -/
def evtErr (s : State) : Bool := s.err

/-- tx_valid is high when the TX FIFO holds a byte. -/
def txValid (s : State) : Bool := decide (0 < s.txq.length)

/-- tx_data is the FIFO's head while tx_valid is high. -/
def txData (s : State) : Option Byte := s.txq.head?

/-- Whether an event is a FrameOk. -/
def Event.isFrameOk : Event → Bool
  | .frameOk _ => true
  | .badSum | .badTag | .txEnq _ | .txByte _ | .err _ | .read _ _ => false

/-- Whether an event is an Err. -/
def Event.isErr : Event → Bool
  | .err _ => true
  | .frameOk _ | .badSum | .badTag | .txEnq _ | .txByte _ | .read _ _ => false

/-- The events a step from s to t appended to the log. -/
def newEvents (s t : State) : List Event := t.log.drop s.log.length

/-- evt_frame of the step from s to t: high exactly when the step emitted a FrameOk (10_state.md R50; 60_exceptions.md
R249; log entry 8). -/
def evtFrame (s t : State) : Bool := (newEvents s t).any Event.isFrameOk

end Sys2Proof.Machine
end

