-- ==== Sys2Proof/Machine/Operands.lean ====
section
/-! DEFINITION. The operand forms: the checksum-8 of a byte sequence, the little-endian words and the nibbles of a
frame, and the bits of a CSR write. -/

namespace Sys2Proof.Machine

/-- ck8(s): the unsigned 8-bit sum of all bytes of s, wrapping mod 256 (40_framer.md R118). -/
def ck8 (s : List Byte) : Byte := s.foldr (fun b acc => b + acc) 0#8

/-- ckbyte(p) = (0x100 - ck8(p)) mod 256: the byte that makes p sum to 0 (40_framer.md R118). -/
def ckbyte (p : List Byte) : Byte := 0#8 - ck8 p

/-- The little-endian word of two bytes, low byte first: lo + 256 * hi (20_memory.md R60; 41_extractor.md R141). -/
def leWord (lo hi : Byte) : Word := hi ++ lo

/-- b[7:4] (00_scope.md R14). -/
def highNibble (b : Byte) : BitVec 4 := b.extractLsb' 4 4

/-- b[3:0] (00_scope.md R14). -/
def lowNibble (b : Byte) : BitVec 4 := b.extractLsb' 0 4

/-- d[i] = 1, bit i of a CSR write (00_scope.md R10). -/
def bitSet (d : Word) (i : Nat) : Bool := d.getLsbD i

/-- The number of a channel: DRIVE 0, REFL 1, OUT 2, DC 3, SWR 4 (00_scope.md R13). -/
def Channel.number : Channel → Nat
  | .drive => 0
  | .refl => 1
  | .out => 2
  | .dc => 3
  | .swr => 4

/-- Every channel, in number order. -/
def Channel.all : List Channel := [.drive, .refl, .out, .dc, .swr]

/-- The channel of a number, none above 4. -/
def Channel.ofNumber? (k : Nat) : Option Channel := Channel.all[k]?

end Sys2Proof.Machine
end

