-- ==== Sys2Proof/Machine/Ops.lean ====
section
/-! DEFINITION. The named operations over the state: the log, the frame buffer, the windows, the TX FIFO, the input
port, and recording and clearing an error. -/

namespace Sys2Proof.Machine

/-! ## Log and errors -/

/-- `emit E`: append E to the log (00_scope.md R11; 10_state.md R49). -/
def emit (e : Event) (s : State) : State := { s with log := s.log ++ [e] }

/-- `raise Err(c)`: log the cause, and keep it in err_cause if no error is recorded yet (60_exceptions.md R243). The op
that raises does nothing after it. -/
def raiseErr (c : Cause) (s : State) : State :=
  let t := emit (.err c) s
  if s.err then t else { t with errCause := some c, err := true }

/-- The return from an error: err and err_cause to 0, what writing 1 to STATUS.ERR does (44_host_ops.md R220;
60_exceptions.md R245). -/
def clearErr (s : State) : State := { s with err := false, errCause := none }

/-! ## Framer -/

/-- `fb[i] <- b` (20_memory.md R64). -/
def storeByte (i : Fin 72) (b : Byte) (s : State) : State := { s with fb := s.fb.set i.val b }

/-- `dec_state <- ACC; dec_cur <- k`. -/
def accumulateAt (k : Fin 72) (s : State) : State := { s with decState := .acc, decCur := k }

/-- `dec_state <- IDLE; dec_cur <- 0` (40_framer.md R112, R113; 44_host_ops.md R221). -/
def framerToIdle (s : State) : State := { s with decState := .idle, decCur := 0 }

/-- cnt_ok, cnt_badsum and cnt_badtag to 0, CNT_CLR (44_host_ops.md R221). -/
def clearCounters (s : State) : State := { s with cntOk := 0#16, cntBadsum := 0#16, cntBadtag := 0#16 }

/-! ## Windows -/

/-- The window of a channel. -/
def Banks.get (b : Banks) : Channel → Bank
  | .drive => b.drive
  | .refl => b.refl
  | .out => b.out
  | .dc => b.dc
  | .swr => b.swr

/-- The windows with one channel's replaced: each channel has its own (42_filters.md R161). -/
def Banks.put (b : Banks) (ch : Channel) (k : Bank) : Banks :=
  match ch with
  | .drive => { b with drive := k }
  | .refl => { b with refl := k }
  | .out => { b with out := k }
  | .dc => { b with dc := k }
  | .swr => { b with swr := k }

/-- The window of channel ch. -/
def bank (ch : Channel) (s : State) : Bank := s.banks.get ch

/-- Replace the window of channel ch. -/
def setBank (ch : Channel) (k : Bank) (s : State) : State := { s with banks := s.banks.put ch k }

/-- Push(ch, v) on one window: overwrite at the cursor, advance it mod N (42_filters.md R160). -/
def Bank.push (v : Word) (k : Bank) : Bank :=
  { k with win := k.win.set k.wc.toNat v, wc := BitVec.ofNat 4 ((k.wc.toNat + 1) % k.n.toNat) }

/-- ClearWin on one window: every slot and the cursor to 0, N left as it is (42_filters.md R166). -/
def Bank.clear (nMax : Nat) (k : Bank) : Bank := { k with win := List.replicate nMax 0#16, wc := 0#4 }

/-- The slots in the window, 0..N-1 (10_state.md R27). -/
def Bank.window (k : Bank) : List Word := k.win.take k.n.toNat

/-- Push(ch, v) (42_filters.md R160). -/
def push (ch : Channel) (v : Word) (s : State) : State := setBank ch ((bank ch s).push v) s

/-- ClearWin(ch) (42_filters.md R166). -/
def clearWin (ch : Channel) (s : State) : State := setBank ch ((bank ch s).clear s.cfg.nMax) s

/-- `N[ch] <- d` (44_host_ops.md R222). -/
def setLength (ch : Channel) (d : Word) (s : State) : State :=
  setBank ch { bank ch s with n := d.setWidth 4 } s

/-! ## TX FIFO -/

/-- TXQ_DEPTH - len(txq), the free bytes of the FIFO (00_scope.md R14). -/
def txFree (s : State) : Nat := s.cfg.txqDepth - s.txq.length

/-- `txq <- txq ++ d` (43_command_encoder.md R191). -/
def txAppend (d : List Byte) (s : State) : State := { s with txq := s.txq ++ d }

/-- `txq <- txq[1 ..]` (43_command_encoder.md R197). -/
def txDropHead (s : State) : State := { s with txq := s.txq.tail }

/-! ## Read data and input port -/

/-- `rdata <- v` (44_host_ops.md R212). -/
def setRdata (v : Word) (s : State) : State := { s with rdata := v }

/-- The cycles still to come, replaced. -/
def setPort (p : List Cycle) (s : State) : State := { s with port := p }

/-- The host presents word w on the op port as the very next cycle (30_encoding.md R80). -/
def presentWord (w : OpWord) (s : State) : State := setPort (.run (some w) false :: s.port) s

end Sys2Proof.Machine
end

