-- ==== Sys2Proof/Machine/Encoder.lean ====
section
/-! DEFINITION. The command datagram encoder and the transport side of the TX FIFO (43_command_encoder.md). -/

namespace Sys2Proof.Machine

/-- The datagram of command c: CMD_BODY[c] ++ [ckbyte(CMD_BODY[c])] (30_encoding.md R89). -/
def datagram (cfg : Config) (c : Command) : List Byte := cfg.body c ++ [ckbyte (cfg.body c)]

/-- Encode(c): the datagram is appended whole where it fits, else TX_DROP and nothing is appended
(43_command_encoder.md R191). -/
def encodeCommand (c : Command) (s : State) : State :=
  let dg := datagram s.cfg c
  if dg.length ≤ txFree s then emit (.txEnq dg) (txAppend dg s) else raiseErr .txDrop s

/-- CMD ENABLE_TLM: Encode(0) (43_command_encoder.md R192). -/
def execCmdEnableTlm (s : State) : Host.Outcome State Fault Refusal := .next (encodeCommand .enableTelemetry s)

/-- CMD DISABLE_TLM: Encode(1) (43_command_encoder.md R193). -/
def execCmdDisableTlm (s : State) : Host.Outcome State Fault Refusal := .next (encodeCommand .disableTelemetry s)

/-- CMD OPERATE: Encode(2) (43_command_encoder.md R194). -/
def execCmdOperate (s : State) : Host.Outcome State Fault Refusal := .next (encodeCommand .operate s)

/-- CMD STANDBY: Encode(3) (43_command_encoder.md R195). -/
def execCmdStandby (s : State) : Host.Outcome State Fault Refusal := .next (encodeCommand .standby s)

/-- CMD OFF: Encode(4) (43_command_encoder.md R196). -/
def execCmdOff (s : State) : Host.Outcome State Fault Refusal := .next (encodeCommand .off s)

/-- TX_POP(): the head byte goes to the transport. With an empty FIFO the transport has no step, so its tx_ready does
nothing (43_command_encoder.md R197; log entry 6). -/
def popByte (s : State) : State :=
  match s.txq with
  | [] => s
  | b :: _ => emit (.txByte b) (txDropHead s)

/-- TX_POP (43_command_encoder.md R197). -/
def execTxPop (s : State) : Host.Outcome State Fault Refusal := .next (popByte s)

end Sys2Proof.Machine
end

