-- ==== Sys2Proof/Machine/Extractor.lean ====
section
/-! DEFINITION. The fixed-length datagram extractor (41_extractor.md). -/

namespace Sys2Proof.Machine

/-- The record of a frame: every field from its offset, none range-checked (41_extractor.md R140 to R151). -/
def recordOf (f : Frame) : Record where
  status := highNibble f[3]
  suppress := suppressFlag (highNibble f[3])
  temp := leWord f[16] f[17]
  fan := highNibble f[69]
  band := lowNibble f[69]
  err := f[66]
  errPresent := errPresentFlag f[66]
  dc := leWord f[8] f[9]
  drive := leWord f[20] f[21]
  out := leWord f[22] f[23]
  refl := leWord f[24] f[25]
  swr := leWord f[26] f[27]

/-- Extract(): latch the record of the frame buffer (41_extractor.md R140). -/
def extract (s : State) : State := { s with record := recordOf s.fb }

end Sys2Proof.Machine
end

