-- ==== Sys2Proof/Machine/Filters.lean ====
section
/-! DEFINITION. The moving-window filter banks (42_filters.md). -/

namespace Sys2Proof.Machine

/-- PushAll(): the five channels of the latched record (42_filters.md R161). Temperature is not filtered (C1). -/
def pushAll (s : State) : State :=
  push .swr s.record.swr
    (push .dc s.record.dc
      (push .out s.record.out
        (push .refl s.record.refl
          (push .drive s.record.drive s))))

/-- The larger of two samples, as unsigned numbers. -/
def maxSample (a b : Word) : Word := if a.toNat ≤ b.toNat then b else a

/-- peak(ch): the maximum over the slots in the window, zeros included (42_filters.md R162). -/
def Bank.peak (k : Bank) : Word := k.window.foldr maxSample 0#16

/-- swr_cnt: how many slots in the window are not 0 (42_filters.md R163). -/
def Bank.nonzeroCount (k : Bank) : Nat := k.window.countP fun v => v != 0#16

/-- swr_sum: the exact sum of the slots in the window (42_filters.md R163). -/
def Bank.sampleSum (k : Bank) : Nat := (k.window.map BitVec.toNat).sum

/-- swr_mean: 0 for "no reading", else the sum over the count, rounded down (42_filters.md R164, R165). -/
def Bank.nonzeroMean (k : Bank) : Nat := if k.nonzeroCount = 0 then 0 else k.sampleSum / k.nonzeroCount

/-- swr_sum in its 20 bits (00_scope.md R14). -/
def Bank.sum20 (k : Bank) : BitVec 20 := BitVec.ofNat 20 k.sampleSum

end Sys2Proof.Machine
end

