-- ==== Sys2Proof/Machine/Framer.lean ====
section
/-! DEFINITION. The framer and the checksum-8 validator: BYTE_IN (40_framer.md). -/

namespace Sys2Proof.Machine

/-- A type tag other than 0x2F: back to IDLE, counted, logged (40_framer.md R112). -/
def abandonTag (s : State) : State :=
  let t := framerToIdle s
  emit .badTag { t with cntBadtag := t.cntBadtag + 1#16 }

/-- A valid frame: Extract, PushAll, then rec_valid and cnt_ok, then the event (40_framer.md R114; 41_extractor.md
R152). -/
def acceptFrame (s : State) : State :=
  let t := pushAll (extract s)
  emit (.frameOk t.fb) { t with recValid := true, cntOk := t.cntOk + 1#16 }

/-- A failed checksum: counted and logged, nothing else (40_framer.md R115). -/
def rejectFrame (s : State) : State := emit .badSum { s with cntBadsum := s.cntBadsum + 1#16 }

/-- The candidate frame is complete: back to IDLE, then the checksum decides (40_framer.md R113). -/
def completeFrame (s : State) : State :=
  let t := framerToIdle s
  if ck8 t.fb.toList = 0#8 then acceptFrame t else rejectFrame t

/-- BYTE_IN(B) in IDLE: 0x55 starts an acquisition, any other byte is dropped (40_framer.md R111). -/
def byteInIdle (b : Byte) (s : State) : State :=
  if b = 0x55#8 then accumulateAt 1 (storeByte 0 b s) else s

/-- BYTE_IN(B) in ACC: store, then the type-tag check at offset 1, the completion at offset 71, or the next offset
(40_framer.md R110). -/
def byteInAcc (b : Byte) (s : State) : State :=
  let t := storeByte s.decCur b s
  let cur := s.decCur.val + 1
  if cur = 2 ∧ b ≠ 0x2F#8 then abandonTag t
  else if cur = 72 then completeFrame t
  else accumulateAt (Fin.ofNat 72 cur) t

/-- BYTE_IN(B) (40_framer.md R110). -/
def byteIn (b : Byte) (s : State) : State :=
  match s.decState with
  | .idle => byteInIdle b s
  | .acc => byteInAcc b s

/-- BYTE_IN: always completes and raises no Err (40_framer.md R110). -/
def execByteIn (b : Byte) (s : State) : Host.Outcome State Fault Refusal := .next (byteIn b s)

end Sys2Proof.Machine
end

