-- ==== Sys2Proof/Machine/Csr.lean ====
section
/-! DEFINITION. The CSR space: the address map, the value each register reads, and what a write does (10_state.md R32 to
R48; 44_host_ops.md R211 to R222). -/

namespace Sys2Proof.Machine

/-- The registers of the map of 10_state.md R32. -/
inductive Csr where
  | ctrl
  | status
  | errCause
  | cntOk
  | cntBadsum
  | cntBadtag
  | txqLevel
  | filtN (ch : Channel)
  | recStatus
  | recTemp
  | recFan
  | recBand
  | recErr
  | recDrive
  | recRefl
  | recOut
  | recDc
  | recSwr
  | peakDrive
  | peakRefl
  | peakOut
  | peakDc
  | swrSumLo
  | swrSumHi
  | swrCnt
  | swrMean
  | filtCur (ch : Channel)
  | win (ch : Channel) (i : Fin 16)
  | fb (i : Fin 72)
deriving DecidableEq, Repr

/-! ## The address map -/

/-- mapped(a) (44_host_ops.md R211). -/
def mapped (nMax : Nat) (a : BitVec 8) : Bool :=
  let x := a.toNat
  decide (x ≤ 0x06) || (decide (0x08 ≤ x) && decide (x ≤ 0x0C)) || (decide (0x10 ≤ x) && decide (x ≤ 0x19))
    || (decide (0x20 ≤ x) && decide (x ≤ 0x2C))
    || (decide (0x30 ≤ x) && decide (x ≤ 0x7F) && decide ((x - 0x30) % 16 < nMax))
    || (decide (0x80 ≤ x) && decide (x ≤ 0xC7))

/-- writable(a) (44_host_ops.md R211). -/
def writable (a : BitVec 8) : Bool :=
  let x := a.toNat
  decide (x = 0x00) || decide (x = 0x01) || (decide (0x08 ≤ x) && decide (x ≤ 0x0C))

/-- The registers below 0x30 that have an address of their own (10_state.md R32). -/
def namedCsr : Nat → Option Csr
  | 0x00 => some .ctrl
  | 0x01 => some .status
  | 0x02 => some .errCause
  | 0x03 => some .cntOk
  | 0x04 => some .cntBadsum
  | 0x05 => some .cntBadtag
  | 0x06 => some .txqLevel
  | 0x10 => some .recStatus
  | 0x11 => some .recTemp
  | 0x12 => some .recFan
  | 0x13 => some .recBand
  | 0x14 => some .recErr
  | 0x15 => some .recDrive
  | 0x16 => some .recRefl
  | 0x17 => some .recOut
  | 0x18 => some .recDc
  | 0x19 => some .recSwr
  | 0x20 => some .peakDrive
  | 0x21 => some .peakRefl
  | 0x22 => some .peakOut
  | 0x23 => some .peakDc
  | 0x24 => some .swrSumLo
  | 0x25 => some .swrSumHi
  | 0x26 => some .swrCnt
  | 0x27 => some .swrMean
  | _ => none

/-- The register at address a, none where a is unmapped (10_state.md R32, R48). -/
def csrAt (nMax : Nat) (a : BitVec 8) : Option Csr :=
  let x := a.toNat
  if x < 0x08 then namedCsr x
  else if x < 0x10 then (Channel.ofNumber? (x - 0x08)).map .filtN
  else if x < 0x28 then namedCsr x
  else if x < 0x30 then (Channel.ofNumber? (x - 0x28)).map .filtCur
  else if x < 0x80 then
    if (x - 0x30) % 16 < nMax then
      (Channel.ofNumber? ((x - 0x30) / 16)).map fun ch => .win ch (Fin.ofNat 16 ((x - 0x30) % 16))
    else none
  else if x < 0xC8 then some (.fb (Fin.ofNat 72 (x - 0x80)))
  else none

/-! ## Reading -/

/-- CsrRead: the value 10_state.md gives the register, undefined bits 0 (44_host_ops.md R213). -/
def csrValue (s : State) : Csr → Word
  | .ctrl => 0#16
  | .status => statusWord s
  | .errCause => (errCauseCode s.errCause).setWidth 16
  | .cntOk => s.cntOk
  | .cntBadsum => s.cntBadsum
  | .cntBadtag => s.cntBadtag
  | .txqLevel => BitVec.ofNat 16 s.txq.length
  | .filtN ch => (bank ch s).n.setWidth 16
  | .recStatus => 0#11 ++ BitVec.ofBool s.record.suppress ++ s.record.status
  | .recTemp => s.record.temp
  | .recFan => s.record.fan.setWidth 16
  | .recBand => s.record.band.setWidth 16
  | .recErr => 0#7 ++ BitVec.ofBool s.record.errPresent ++ s.record.err
  | .recDrive => s.record.drive
  | .recRefl => s.record.refl
  | .recOut => s.record.out
  | .recDc => s.record.dc
  | .recSwr => s.record.swr
  | .peakDrive => (bank .drive s).peak
  | .peakRefl => (bank .refl s).peak
  | .peakOut => (bank .out s).peak
  | .peakDc => (bank .dc s).peak
  | .swrSumLo => (bank .swr s).sum20.extractLsb' 0 16
  | .swrSumHi => ((bank .swr s).sum20.extractLsb' 16 4).setWidth 16
  | .swrCnt => (BitVec.ofNat 4 (bank .swr s).nonzeroCount).setWidth 16
  | .swrMean => BitVec.ofNat 16 (bank .swr s).nonzeroMean
  | .filtCur ch => (bank ch s).wc.setWidth 16
  | .win ch i => (bank ch s).win.getD i.val 0#16
  | .fb i => s.fb[i.val].setWidth 16

/-- What a read of address a returns: CsrRead(a) where a is mapped, 0x0000 where it is not (44_host_ops.md R212). -/
def csrRead (a : BitVec 8) (s : State) : Word :=
  match csrAt s.cfg.nMax a with
  | some r => csrValue s r
  | none => 0#16

/-! ## Writing -/

/-- ClearWin for all five channels, FILT_CLR (44_host_ops.md R221). -/
def clearAllWins (s : State) : State :=
  clearWin .swr (clearWin .dc (clearWin .out (clearWin .refl (clearWin .drive s))))

/-- CtrlWrite(d): FILT_CLR, DEC_RST, CNT_CLR (44_host_ops.md R221). -/
def ctrlWrite (d : Word) (s : State) : State :=
  let s1 := if bitSet d 0 then clearAllWins s else s
  let s2 := if bitSet d 1 then framerToIdle s1 else s1
  if bitSet d 2 then clearCounters s2 else s2

/-- StatusWrite(d): bit 2 clears the error, every other bit is ignored (44_host_ops.md R220). -/
def statusWrite (d : Word) (s : State) : State := if bitSet d 2 then clearErr s else s

/-- FiltNWrite(ch, d): a value outside 1..N_MAX is CSR_BAD_VALUE; else the new length and a cleared window
(44_host_ops.md R222). -/
def filtNWrite (ch : Channel) (d : Word) (s : State) : State :=
  if d.toNat < 1 ∨ s.cfg.nMax < d.toNat then raiseErr .csrBadValue s else clearWin ch (setLength ch d s)

/-- CsrWrite(a, d), for a writable a (44_host_ops.md R215). -/
def csrWrite (a : BitVec 8) (d : Word) (s : State) : State :=
  if a = 0x00#8 then ctrlWrite d s
  else if a = 0x01#8 then statusWrite d s
  else match Channel.ofNumber? (a.toNat - 0x08) with
    | some ch => filtNWrite ch d s
    | none => s

end Sys2Proof.Machine
end

