-- ==== Sys2Proof/Machine/HostOps.lean ====
section
/-! DEFINITION. The host ops: NOP, CSR_READ, CSR_WRITE and the execution of an illegal word (44_host_ops.md). -/

namespace Sys2Proof.Machine

/-- NOP: nothing (44_host_ops.md R210). -/
def execNop (s : State) : Host.Outcome State Fault Refusal := .next s

/-- The part every read has: rdata takes v and the read is logged (44_host_ops.md R212). -/
def readAnswer (a : BitVec 8) (v : Word) (s : State) : State := emit (.read a v) (setRdata v s)

/-- CSR_READ(A): an unmapped address answers 0x0000 and then raises CSR_UNMAPPED (44_host_ops.md R212). -/
def execCsrRead (a : BitVec 8) (s : State) : Host.Outcome State Fault Refusal :=
  .next (if mapped s.cfg.nMax a then readAnswer a (csrRead a s) s else raiseErr .csrUnmapped (readAnswer a 0#16 s))

/-- CSR_WRITE(A, D): mapped, then writable, then the register's own write (44_host_ops.md R214; 60_exceptions.md
R242). -/
def execCsrWrite (a : BitVec 8) (d : Word) (s : State) : Host.Outcome State Fault Refusal :=
  .next (if mapped s.cfg.nMax a then
      if writable a then csrWrite a d s else raiseErr .csrReadOnly s
    else raiseErr .csrUnmapped s)

/-- ILLEGAL(cause): the cause is raised and nothing else happens (44_host_ops.md R216). -/
def execIllegal (c : Cause) (s : State) : Host.Outcome State Fault Refusal := .next (raiseErr c s)

end Sys2Proof.Machine
end

