-- ==== Sys2Proof/Machine/ResetPin.lean ====
section
/-! DEFINITION. The reset pin (70_reset_and_hazards.md R270). -/

namespace Sys2Proof.Machine

/-- RESET(): every state element takes its reset value in one step; the log is not cleared (70_reset_and_hazards.md
R270). The configuration and the cycles to come are not state of the core (log entry 10). -/
def resetState (s : State) : State :=
  { s with
    decState := .idle
    decCur := 0
    fb := Vector.replicate 72 0#8
    record := Record.zero
    recValid := false
    banks := ⟨Bank.initial s.cfg, Bank.initial s.cfg, Bank.initial s.cfg, Bank.initial s.cfg, Bank.initial s.cfg⟩
    cntOk := 0#16
    cntBadsum := 0#16
    cntBadtag := 0#16
    err := false
    errCause := none
    txq := []
    rdata := 0#16 }

/-- RESET (70_reset_and_hazards.md R270). -/
def execReset (s : State) : Host.Outcome State Fault Refusal := .next (resetState s)

end Sys2Proof.Machine
end

