-- ==== Sys2Proof/Machine/Dispatch.lean ====
section
/-! DEFINITION. exec: one arm per constructor of Instr. -/

namespace Sys2Proof.Machine

def exec (i : Instr) (s : State) : Host.Outcome State Fault Refusal :=
  match i with
  | .nop => Sys2Proof.Machine.execNop s
  | .byteIn b => Sys2Proof.Machine.execByteIn b s
  | .cmdEnableTlm => Sys2Proof.Machine.execCmdEnableTlm s
  | .cmdDisableTlm => Sys2Proof.Machine.execCmdDisableTlm s
  | .cmdOperate => Sys2Proof.Machine.execCmdOperate s
  | .cmdStandby => Sys2Proof.Machine.execCmdStandby s
  | .cmdOff => Sys2Proof.Machine.execCmdOff s
  | .csrRead a => Sys2Proof.Machine.execCsrRead a s
  | .csrWrite a d => Sys2Proof.Machine.execCsrWrite a d s
  | .txPop => Sys2Proof.Machine.execTxPop s
  | .reset => Sys2Proof.Machine.execReset s

end Sys2Proof.Machine
end

