-- ==== Sys2Proof/Machine/Port.lean ====
section
/-! DEFINITION. The ports: how the next clock cycle's inputs become one atomic step of the core. -/

namespace Sys2Proof.Machine

/-- A word on the op port: decoded, then performed; an illegal word is executed as its cause (30_encoding.md R82;
44_host_ops.md R216). -/
def runWord (w : OpWord) (s : State) : Host.Outcome State Fault Refusal :=
  match decode w with
  | .op i => exec i s
  | .illegal c => execIllegal c s

/-- What is left of a cycle after its op: the transport's handshake, if it holds tx_ready (20_memory.md R71). DESIGN
CHOICE: tx_valid counts after the op, so a byte that a command puts into an empty FIFO can be taken in the command's own
cycle (30_encoding.md R86 does not say which; log entry 15). -/
def afterOp (txReady : Bool) (rest : List Cycle) : List Cycle :=
  if txReady then .run none true :: rest else rest

/-- One step: what the next cycle to come does. The reset pin overrides a word presented in its cycle
(70_reset_and_hazards.md R270). In a cycle with an op and a handshake the op is a step and the handshake the next one
(20_memory.md R71; log entries 5 and 15). With nothing presented the core keeps all its state (60_exceptions.md R254). -/
def portStep (s : State) : Host.Outcome State Fault Refusal :=
  match s.port with
  | [] => .next s
  | .reset _ :: rest => exec .reset (setPort rest s)
  | .run (some w) txReady :: rest => runWord w (setPort (afterOp txReady rest) s)
  | .run none true :: rest => exec .txPop (setPort rest s)
  | .run none false :: rest => .next (setPort rest s)

end Sys2Proof.Machine
end

