-- ==== Sys2Proof/Machine/Step.lean ====
section
/-! DEFINITION. The step of the machine, and how an opcode-table word is presented to it. -/

namespace Sys2Proof.Machine

/-- One step of the core: one op, one handshake, one reset edge, or nothing (00_scope.md R12). -/
def step (s : State) : Host.Outcome State Fault Refusal := portStep s

/-- s with the op word w presented on the op port in the very next cycle. An op word is one 32-bit word, so nbits says
nothing more (30_encoding.md R85; log entry 4). -/
def State.withFetchWord (s : State) (_nbits w : Nat) : State := presentWord (BitVec.ofNat 32 w) s

end Sys2Proof.Machine
end

