-- ==== Sys2Proof/Machine/Asm.lean ====
section
/-! DEFINITION. The assembler lines and pseudo-ops of 30_encoding.md R90 and R91, and the op words they stand for. A
register name is a Csr; the text of a line never reaches the core (log entry 12). -/

namespace Sys2Proof.Machine

/-- The address of a register, from the map of 10_state.md R32. -/
def csrAddr : Csr → BitVec 8
  | .ctrl => 0x00#8
  | .status => 0x01#8
  | .errCause => 0x02#8
  | .cntOk => 0x03#8
  | .cntBadsum => 0x04#8
  | .cntBadtag => 0x05#8
  | .txqLevel => 0x06#8
  | .filtN ch => BitVec.ofNat 8 (0x08 + ch.number)
  | .recStatus => 0x10#8
  | .recTemp => 0x11#8
  | .recFan => 0x12#8
  | .recBand => 0x13#8
  | .recErr => 0x14#8
  | .recDrive => 0x15#8
  | .recRefl => 0x16#8
  | .recOut => 0x17#8
  | .recDc => 0x18#8
  | .recSwr => 0x19#8
  | .peakDrive => 0x20#8
  | .peakRefl => 0x21#8
  | .peakOut => 0x22#8
  | .peakDc => 0x23#8
  | .swrSumLo => 0x24#8
  | .swrSumHi => 0x25#8
  | .swrCnt => 0x26#8
  | .swrMean => 0x27#8
  | .filtCur ch => BitVec.ofNat 8 (0x28 + ch.number)
  | .win ch i => BitVec.ofNat 8 (0x30 + 16 * ch.number + i.val)
  | .fb i => BitVec.ofNat 8 (0x80 + i.val)

/-- One assembler line (30_encoding.md R90) or pseudo-op (R91). -/
inductive AsmLine where
  | nop
  | byte (b : Byte)
  | cmd (c : Command)
  | rd (a : BitVec 8)
  | wr (a : BitVec 8) (d : Word)
  | rawWord (w : OpWord)
  | bytes (bs : List Byte)
  | frame (bs : List Byte)
  | tframe (fields : List (Nat × Byte))
  | tframeBad (fields : List (Nat × Byte))
  | clrErr
  | fclr
  | drst
  | cclr
  | setN (ch : Channel) (n : Word)
deriving DecidableEq, Repr

/-- `BYTE b` is 0x10000000 | b (30_encoding.md R90). -/
def byteWord (b : Byte) : OpWord := 0x10000000#32 ||| b.setWidth 32

/-- `CMD name` is 0x20000000 | c (30_encoding.md R90). -/
def cmdWord (c : Command) : OpWord := 0x20000000#32 ||| c.id.setWidth 32

/-- `RD csr` is 0x30000000 | (a << 16) (30_encoding.md R90). -/
def rdWord (a : BitVec 8) : OpWord := 0x30000000#32 ||| (a.setWidth 32 <<< 16)

/-- `WR csr, d` is 0x40000000 | (a << 16) | d (30_encoding.md R90). -/
def wrWord (a : BitVec 8) (d : Word) : OpWord := 0x40000000#32 ||| (a.setWidth 32 <<< 16) ||| d.setWidth 32

/-- The offsets a TFRAME may name: 2 to 70, each at most once (30_encoding.md R91; log entry 12). -/
def tframeFieldsOk (fields : List (Nat × Byte)) : Bool :=
  (fields.all fun p => decide (2 ≤ p.1) && decide (p.1 ≤ 70)) && decide (fields.map Prod.fst).Nodup

/-- The bytes 0 to 70 of a TFRAME: 0x55, 0x2F, the named bytes, 0x00 elsewhere (30_encoding.md R91). -/
def tframeHead (fields : List (Nat × Byte)) : List Byte :=
  fields.foldl (fun f p => f.set p.1 p.2) (0x55#8 :: 0x2F#8 :: List.replicate 69 0#8)

/-- The 72 bytes of `TFRAME`: f[71] makes the sum 0 mod 256 (30_encoding.md R91). -/
def tframeBytes (fields : List (Nat × Byte)) : List Byte :=
  tframeHead fields ++ [ckbyte (tframeHead fields)]

/-- The 72 bytes of `TFRAME!`: f[71] one more (30_encoding.md R91). -/
def tframeBadBytes (fields : List (Nat × Byte)) : List Byte :=
  tframeHead fields ++ [ckbyte (tframeHead fields) + 1#8]

/-- The op words of a line, none where the line is not legal (30_encoding.md R90, R91). -/
def assemble : AsmLine → Option (List OpWord)
  | .nop => some [0x00000000#32]
  | .byte b => some [byteWord b]
  | .cmd c => some [cmdWord c]
  | .rd a => some [rdWord a]
  | .wr a d => some [wrWord a d]
  | .rawWord w => some [w]
  | .bytes bs => some (bs.map byteWord)
  | .frame bs => if bs.length = 72 then some (bs.map byteWord) else none
  | .tframe fields => if tframeFieldsOk fields then some ((tframeBytes fields).map byteWord) else none
  | .tframeBad fields => if tframeFieldsOk fields then some ((tframeBadBytes fields).map byteWord) else none
  | .clrErr => some [wrWord (csrAddr .status) 0x0004#16]
  | .fclr => some [wrWord (csrAddr .ctrl) 0x0001#16]
  | .drst => some [wrWord (csrAddr .ctrl) 0x0002#16]
  | .cclr => some [wrWord (csrAddr .ctrl) 0x0004#16]
  | .setN ch n => some [wrWord (csrAddr (.filtN ch)) n]

end Sys2Proof.Machine
end

