-- ==== Sys2Proof/Safety.lean ====
section
/-! DEFINITION. What claims say about runs: the invariants of 10_state.md R51, what the framer and the log hold besides,
the states a core can come to, and sequences of ops. -/

namespace Sys2Proof.Machine

/-- A window in order: N_MAX slots, 1 <= N <= N_MAX, wc < N, and slots N and above hold 0 (10_state.md R51 b, c). -/
structure Bank.Ok (nMax : Nat) (k : Bank) : Prop where
  slots : k.win.length = nMax
  one_le_n : 1 ≤ k.n.toNat
  n_le : k.n.toNat ≤ nMax
  wc_lt : k.wc.toNat < k.n.toNat
  above_zero : ∀ i, k.n.toNat ≤ i → k.win.getD i 0#16 = 0#16

/-- The invariants every reachable state keeps (10_state.md R51). -/
structure State.Inv (s : State) : Prop where
  /-- (a) dec_state = IDLE if and only if dec_cur = 0; dec_cur <= 71 is its type. -/
  idle_iff : s.decState = .idle ↔ s.decCur = 0
  /-- (b) and (c), every channel. -/
  banks_ok : ∀ ch, (bank ch s).Ok s.cfg.nMax
  /-- (d) err = 0 if and only if err_cause = 0. -/
  err_iff : s.err = false ↔ s.errCause = none
  /-- (e) len(txq) <= TXQ_DEPTH. -/
  txq_le : s.txq.length ≤ s.cfg.txqDepth
  /-- (f) rec_valid = 0 implies every rec field is 0. -/
  record_zero : s.recValid = false → s.record = Record.zero

/-- What the frame buffer holds during an acquisition: the sync byte, and the type tag once it was checked
(40_framer.md R113). -/
def FramerSynced (s : State) : Prop :=
  s.decState = .acc → s.fb[0] = 0x55#8 ∧ (2 ≤ s.decCur.val → s.fb[1] = 0x2F#8)

/-- A telemetry frame: 0x55, 0x2F, and a sum of 0 mod 256 (30_encoding.md R87). -/
def IsFrame (f : Frame) : Prop := f[0] = 0x55#8 ∧ f[1] = 0x2F#8 ∧ (f.toList.map BitVec.toNat).sum % 256 = 0

/-- Every FrameOk in the log is a telemetry frame (40_framer.md R114). -/
def FramesValid (s : State) : Prop := ∀ f, Event.frameOk f ∈ s.log → IsFrame f

/-- The bytes of an event put into the FIFO. -/
def Event.enqueued : Event → List Byte
  | .txEnq d => d
  | .frameOk _ | .badSum | .badTag | .txByte _ | .err _ | .read _ _ => []

/-- The byte of an event taken from the FIFO. -/
def Event.taken : Event → List Byte
  | .txByte b => [b]
  | .frameOk _ | .badSum | .badTag | .txEnq _ | .err _ | .read _ _ => []

/-- The bytes taken so far and the bytes still queued are the bytes enqueued, in order (20_memory.md R72). -/
def FifoInOrder (s : State) : Prop := s.log.flatMap Event.taken ++ s.txq = s.log.flatMap Event.enqueued

/-- The states a core of any configuration can come to, whatever its agents drive: a core starts at reset, the outside
world chooses the cycles to come, and the core steps. -/
inductive Reachable : State → Prop where
  | initial (c : Config) : Reachable (State.initial c)
  | drive {s : State} (p : List Cycle) : Reachable s → Reachable (setPort p s)
  | step {s t : State} : Reachable s → step s = .next t → Reachable t

/-- Ops performed one after another (20_memory.md R70), stopping where one does not complete. -/
def execAll : List Instr → State → Host.Outcome State Fault Refusal
  | [], s => .next s
  | i :: is, s =>
    match exec i s with
    | .next t => execAll is t
    | .fault r => .fault r
    | .refused r => .refused r

/-- Received bytes, one BYTE_IN each, in arrival order (20_memory.md R69). -/
def feed (bs : List Byte) (s : State) : Host.Outcome State Fault Refusal := execAll (bs.map Instr.byteIn) s

/-- The five CMD ops, each with its command (30_encoding.md R81). -/
def commandOf? : Instr → Option Command
  | .cmdEnableTlm => some .enableTelemetry
  | .cmdDisableTlm => some .disableTelemetry
  | .cmdOperate => some .operate
  | .cmdStandby => some .standby
  | .cmdOff => some .off
  | .nop | .byteIn _ | .csrRead _ | .csrWrite _ _ | .txPop | .reset => none

end Sys2Proof.Machine
end

