-- ==== Sys2Proof/Certificates/Slice0/Obligations.lean ====
section
/-! DEFINITION. The statements for the provers. Each docstring says which sentence of spec/ it formalises. -/

open Sys2Proof Sys2Proof.Machine

/-! ## Parameters (00_scope.md section 4) -/

/-- Parameters make a configuration exactly when they meet every constraint; this hardware's N_MAX and N_RESET are 10, and
its TXQ_DEPTH is 64 unless L_MAX > 64, then open between L_MAX and 65535 (00_scope.md section 4; the open values are log
entries 2 and 3). -/
def Obligations.OnlyWellFormedParametersConfigure : Prop :=
  (∀ p : Params, (Config.ofParams? p).isSome = true ↔
    (1 ≤ p.nMax ∧ p.nMax ≤ 15) ∧ (1 ≤ p.nReset ∧ p.nReset ≤ p.nMax) ∧
    (∀ c, (p.cmdBody.body c).head? = some 0x55#8 ∧ (p.cmdBody.body c).length + 1 ≤ p.txqDepth) ∧
    p.txqDepth ≤ 65535) ∧
  Config.hardware.nMax = 10 ∧ Config.hardware.nReset = 10 ∧
  Config.hardware.txqDepth = Config.hardwareDepth Config.hardware.params.lMax ∧
  ∀ l, l ≤ 65535 → l ≤ Config.hardwareDepth l ∧ Config.hardwareDepth l ≤ 65535 ∧ (l ≤ 64 → Config.hardwareDepth l = 64)

/-! ## Decoding and encoding (30_encoding.md) -/

/-- Every op word instruction, at every operand value, is decoded from its own encoding; the two port steps have no word
(30_encoding.md sections 1: the table of op codes, and the ports that carry no op word). -/
def Obligations.DecodeReadsBackEveryEncoding : Prop :=
  ∀ i : Instr,
    (i.wellFormed = true → ∃ w, encode i = some w ∧ decode w = .op i) ∧
    (i.wellFormed = false → encode i = none)

/-- A word that decodes to an op is that op's one encoding: no reserved bit is dropped (30_encoding.md section 1). -/
def Obligations.EveryLegalWordIsAnEncoding : Prop :=
  ∀ (w : OpWord) (i : Instr), decode w = .op i → i.wellFormed = true ∧ encode i = some w

/-- decode(w), by the numbers of the op word: bits 31:28 are w / 2^28, bits 27:0 are w mod 2^28; an illegal verdict is
executed as ILLEGAL(cause) (30_encoding.md R82). -/
def Obligations.DecodeFollowsTheWordsNumber : Prop :=
  ∀ (w : OpWord) (op low : Nat), op = w.toNat / 2 ^ 28 → low = w.toNat % 2 ^ 28 →
    (∀ c s, decode w = .illegal c → runWord w s = execIllegal c s) ∧
    decode w =
      if op = 0 then if low = 0 then .op .nop else .illegal .illegalOp
      else if op = 1 then if low < 2 ^ 8 then .op (.byteIn (BitVec.ofNat 8 low)) else .illegal .illegalOp
      else if op = 2 then
        if low = 0 then .op .cmdEnableTlm
        else if low = 1 then .op .cmdDisableTlm
        else if low = 2 then .op .cmdOperate
        else if low = 3 then .op .cmdStandby
        else if low = 4 then .op .cmdOff
        else if low < 2 ^ 3 then .illegal .illegalCmd
        else .illegal .illegalOp
      else if op = 3 then
        if low / 2 ^ 24 = 0 ∧ low % 2 ^ 16 = 0 then .op (.csrRead (BitVec.ofNat 8 (low / 2 ^ 16)))
        else .illegal .illegalOp
      else if op = 4 then
        if low / 2 ^ 24 = 0 then .op (.csrWrite (BitVec.ofNat 8 (low / 2 ^ 16)) (BitVec.ofNat 16 low))
        else .illegal .illegalOp
      else .illegal .illegalOp

/-- Words written out in spec/ (44_host_ops.md, 43_command_encoder.md, 95_test_vectors.md L2.7). -/
def Obligations.SpecWordsDecode : Prop :=
  decode 0x00000000#32 = .op .nop ∧ decode 0x10000055#32 = .op (.byteIn 0x55#8) ∧
  decode 0x20000000#32 = .op .cmdEnableTlm ∧ decode 0x20000004#32 = .op .cmdOff ∧
  decode 0x30080000#32 = .op (.csrRead 0x08#8) ∧ decode 0x400C0004#32 = .op (.csrWrite 0x0C#8 0x0004#16) ∧
  decode 0x10000155#32 = .illegal .illegalOp ∧ decode 0x20000007#32 = .illegal .illegalCmd ∧
  decode 0x20000008#32 = .illegal .illegalOp ∧ decode 0x3FFF0000#32 = .illegal .illegalOp

/-- The assembler's words decode to the ops they name (30_encoding.md section 4, the syntax table). -/
def Obligations.AssemblerWordsDecode : Prop :=
  (∀ b, decode (byteWord b) = .op (.byteIn b)) ∧
  (∀ i c, commandOf? i = some c → decode (cmdWord c) = .op i) ∧
  (∀ a, decode (rdWord a) = .op (.csrRead a)) ∧
  (∀ a d, decode (wrWord a d) = .op (.csrWrite a d))

/-- TFRAME builds a 72-byte telemetry frame whose sum is 0 mod 256; TFRAME! one whose sum is 1 (30_encoding.md
section 4, the pseudo-ops). -/
def Obligations.TframeMeetsTheChecksum : Prop :=
  ∀ fields : List (Nat × Byte), tframeFieldsOk fields = true →
    (tframeBytes fields).length = 72 ∧ (tframeBytes fields)[0]? = some 0x55#8 ∧ (tframeBytes fields)[1]? = some 0x2F#8 ∧
    (∀ o v, (o, v) ∈ fields → (tframeBytes fields)[o]? = some v) ∧
    ((tframeBytes fields).map BitVec.toNat).sum % 256 = 0 ∧
    (tframeBadBytes fields).length = 72 ∧ ((tframeBadBytes fields).map BitVec.toNat).sum % 256 = 1

/-! ## Steps and ports -/

/-- Every op completes, in every state: errors do not trap and nothing waits (60_exceptions.md section 2;
43_command_encoder.md section 1). For TX_POP the spec says so while txq holds a byte (43_command_encoder.md section 3);
that it also completes with txq empty, where "the transport has no step", is log entry 6. -/
def Obligations.EveryOpCompletes : Prop :=
  ∀ (i : Instr) (s : State), ∃ t, exec i s = .next t

/-- A word on the op port that decodes to op i is one step, exec of i, and an illegal one is one step, ILLEGAL of its
cause; the cycle leaves the port, but for the transport's handshake in the same cycle, which comes next (30_encoding.md
section 1; 00_scope.md section 5; the port and the order within a cycle are log entries 4, 5 and 15). -/
def Obligations.StepRunsTheDecodedOp : Prop :=
  ∀ (s s' : State) (w : OpWord) (txReady : Bool) (rest : List Cycle),
    s.port = .run (some w) txReady :: rest →
    s' = { s with port := if txReady then .run none true :: rest else rest } →
    (∀ i, decode w = .op i → step s = exec i s') ∧ (∀ c, decode w = .illegal c → step s = execIllegal c s')

/-- ILLEGAL: a word decode does not take is performed as its cause: the cause is raised and nothing else changes
(44_host_ops.md R216). -/
def Obligations.IllegalWordOnlyRaisesItsCause : Prop :=
  ∀ (s : State) (w : OpWord) (c : Cause), decode w = .illegal c →
    (c = .illegalOp ∨ c = .illegalCmd) ∧
    runWord w s = .next { s with
      log := s.log ++ [.err c]
      err := true
      errCause := if s.err then s.errCause else some c }

/-- The steps that carry no op word: the transport's handshake is TX_POP, an asserted reset pin is RESET whatever word is
presented with it, and with nothing presented the core keeps its state (30_encoding.md section 1;
70_reset_and_hazards.md section 1; 60_exceptions.md section 4; the port is log entry 4, a tx_ready with txq empty log
entry 6, the idle step log entry 9). -/
def Obligations.PortStepsWithoutAnOpWord : Prop :=
  ∀ (s : State) (rest : List Cycle),
    (s.port = .run none true :: rest → step s = exec .txPop { s with port := rest }) ∧
    (∀ op, s.port = .reset op :: rest → step s = exec .reset { s with port := rest }) ∧
    (s.port = .run none false :: rest → step s = .next { s with port := rest }) ∧
    (s.port = [] → step s = .next s)

/-- A command and a handshake in one clock cycle are the command first, which sees the FIFO before the pop, and then
TX_POP (20_memory.md section 4, the interleaving of host and transport; the port and the order are log entries 4 and 5,
and that a FIFO the command found empty gives the byte in the same cycle is log entry 15). -/
def Obligations.CommandThenHandshakeInOneCycle : Prop :=
  ∀ (s : State) (w : OpWord) (rest : List Cycle) (i : Instr) (c : Command),
    s.port = .run (some w) true :: rest → decode w = .op i → commandOf? i = some c →
    ∃ t, step s = .next t ∧
      t.txq = (if (datagram s.cfg c).length ≤ s.cfg.txqDepth - s.txq.length then s.txq ++ datagram s.cfg c
        else s.txq) ∧
      step t = exec .txPop { t with port := rest }

/-- No step changes the configuration (10_state.md section 1), and the log only grows (10_state.md section 8;
70_reset_and_hazards.md section 1: reset does not clear it). -/
def Obligations.StepKeepsConfigurationAndLog : Prop :=
  ∀ s t : State, step s = .next t → t.cfg = s.cfg ∧ ∃ es, t.log = s.log ++ es

/-! ## NOP -/

/-- NOP does nothing, and 0x00000000 is its only word (44_host_ops.md R210). -/
def Obligations.NopChangesNothing : Prop :=
  (∀ s : State, exec .nop s = .next s) ∧ decode 0x00000000#32 = .op .nop ∧
  ∀ w : OpWord, w.toNat / 2 ^ 28 = 0 → w ≠ 0#32 → decode w = .illegal .illegalOp

/-! ## BYTE_IN (40_framer.md) -/

/-- IDLE: 0x55 is written at position 0 and starts an acquisition with the cursor at 1; any other byte is dropped and
leaves no trace (40_framer.md R111). -/
def Obligations.IdleByteStartsOrIsDropped : Prop :=
  ∀ (b : Byte) (s : State), s.decState = .idle →
    exec (.byteIn b) s = .next
      (if b = 0x55#8 then { s with fb := s.fb.set 0 b, decCur := 1, decState := .acc } else s)

/-- ACC, offsets 1 to 70: the byte is written at the cursor and the cursor advances; at offset 1 alone a byte other than
0x2F ends the acquisition instead, counted and logged, and stays in fb[1] (40_framer.md R112). -/
def Obligations.AccumulatingByteIsStoredOrAbandons : Prop :=
  ∀ (b : Byte) (s : State) (i : Fin 72), s.decState = .acc → s.decCur = i → 1 ≤ i.val → i.val ≤ 70 →
    exec (.byteIn b) s = .next
      (if i.val = 1 ∧ b ≠ 0x2F#8 then
        { s with
          fb := s.fb.set 1 b
          decState := .idle
          decCur := 0
          cntBadtag := s.cntBadtag + 1#16
          log := s.log ++ [.badTag] }
      else { s with fb := s.fb.set i.val b, decCur := i + 1 })

/-- The 72nd byte with a sum that is not 0 mod 256: the frame is discarded, counted and logged, and no record is
extracted and no filter pushed (40_framer.md R115). -/
def Obligations.BadChecksumDiscards : Prop :=
  ∀ (b : Byte) (s : State), s.decState = .acc → s.decCur = 71 →
    ((s.fb.set 71 b).toList.map BitVec.toNat).sum % 256 ≠ 0 →
    exec (.byteIn b) s = .next { s with
      fb := s.fb.set 71 b
      decState := .idle
      decCur := 0
      cntBadsum := s.cntBadsum + 1#16
      log := s.log ++ [.badSum] }

/-- The 72nd byte with a sum of 0 mod 256: in the one step the record is latched, each of the five windows takes its own
sample, rec_valid is set, cnt_ok counts, FrameOk is logged with the 72 bytes, and evt_frame is high; nothing else changes
(40_framer.md section 2; 42_filters.md section 1). -/
def Obligations.GoodChecksumAccepts : Prop :=
  ∀ (b : Byte) (s : State) (f : Frame), s.decState = .acc → s.decCur = 71 → f = s.fb.set 71 b →
    (f.toList.map BitVec.toNat).sum % 256 = 0 →
    ∃ t, exec (.byteIn b) s = .next t ∧ evtFrame s t = true ∧
      t = { s with
        fb := f
        decState := .idle
        decCur := 0
        record := recordOf f
        banks := {
          drive := s.banks.drive.push (recordOf f).drive
          refl := s.banks.refl.push (recordOf f).refl
          out := s.banks.out.push (recordOf f).out
          dc := s.banks.dc.push (recordOf f).dc
          swr := s.banks.swr.push (recordOf f).swr }
        recValid := true
        cntOk := s.cntOk + 1#16
        log := s.log ++ [.frameOk f] }

/-- evt_frame is high for exactly the op that emits a FrameOk: the byte that completes a frame with a sum of 0 mod 256
(10_state.md section 8; log entry 8 for its form). -/
def Obligations.EvtFramePulsesExactlyOnFrames : Prop :=
  ∀ (i : Instr) (s t : State), exec i s = .next t →
    (evtFrame s t = true ↔ ∃ b, i = .byteIn b ∧ s.decState = .acc ∧ s.decCur = 71 ∧
      ((s.fb.set 71 b).toList.map BitVec.toNat).sum % 256 = 0)

/-- Reception and transmission share no state but the error state: a received byte leaves the FIFO, the error state and
rdata alone; a command or a TX_POP leaves the framer, the record, the windows and the counters alone (20_memory.md
section 4; 60_exceptions.md section 2). -/
def Obligations.ReceptionAndTransmissionAreSeparate : Prop :=
  (∀ (b : Byte) (s t : State), exec (.byteIn b) s = .next t →
    t.txq = s.txq ∧ t.err = s.err ∧ t.errCause = s.errCause ∧ t.rdata = s.rdata) ∧
  (∀ (i : Instr) (s t : State), (∃ c, commandOf? i = some c) ∨ i = .txPop → exec i s = .next t →
    t.decState = s.decState ∧ t.decCur = s.decCur ∧ t.fb = s.fb ∧ t.record = s.record ∧ t.recValid = s.recValid ∧
    t.banks = s.banks ∧ t.cntOk = s.cntOk ∧ t.cntBadsum = s.cntBadsum ∧ t.cntBadtag = s.cntBadtag ∧
    t.rdata = s.rdata)

/-- Between two received bytes, only DEC_RST and RESET affect the framer (40_framer.md section 4). -/
def Obligations.OnlyBytesAndResetsMoveTheFramer : Prop :=
  ∀ (i : Instr) (s t : State), exec i s = .next t → (∀ b, i ≠ .byteIn b) → i ≠ .reset →
    (∀ d, i = .csrWrite 0x00#8 d → d.getLsbD 1 = false) →
    t.decState = s.decState ∧ t.decCur = s.decCur ∧ t.fb = s.fb

/-- From IDLE, the 72 bytes of any candidate frame, fed one by one, end in IDLE with the frame decided by its sum alone:
exactly one FrameOk and the record latched, or exactly one BadSum and record and windows unchanged (40_framer.md
section 2; 95_test_vectors.md L1-2). -/
def Obligations.SeventyTwoBytesAreOneVerdict : Prop :=
  ∀ (f : Frame) (s : State), s.decState = .idle → f[0] = 0x55#8 → f[1] = 0x2F#8 →
    ∃ t, feed f.toList s = .next t ∧ t.decState = .idle ∧ t.fb = f ∧ t.cntBadtag = s.cntBadtag ∧
      if (f.toList.map BitVec.toNat).sum % 256 = 0 then
        t.log = s.log ++ [.frameOk f] ∧ t.record = recordOf f ∧ t.recValid = true ∧ t.cntOk = s.cntOk + 1#16 ∧
          t.cntBadsum = s.cntBadsum
      else
        t.log = s.log ++ [.badSum] ∧ t.record = s.record ∧ t.recValid = s.recValid ∧ t.banks = s.banks ∧
          t.cntOk = s.cntOk ∧ t.cntBadsum = s.cntBadsum + 1#16

/-- A change of one byte of a valid frame makes its sum not 0, so the machine rejects it: from IDLE, the changed frame with
its sync byte and tag kept logs exactly one BadSum and no FrameOk, and leaves record, windows, rec_valid and cnt_ok
(40_framer.md section 3; 95_test_vectors.md L1-2). -/
def Obligations.OneChangedByteBreaksTheChecksum : Prop :=
  ∀ (f : Frame) (k : Fin 72) (b : Byte), (f.toList.map BitVec.toNat).sum % 256 = 0 → b ≠ f[k] →
    ((f.set k.val b).toList.map BitVec.toNat).sum % 256 ≠ 0 ∧
    ∀ s : State, s.decState = .idle → f[0] = 0x55#8 → f[1] = 0x2F#8 → 2 ≤ k.val →
      ∃ t, feed (f.set k.val b).toList s = .next t ∧ t.log = s.log ++ [.badSum] ∧ t.decState = .idle ∧
        t.record = s.record ∧ t.recValid = s.recValid ∧ t.banks = s.banks ∧ t.cntOk = s.cntOk ∧
        t.cntBadsum = s.cntBadsum + 1#16

/-! ## The record (41_extractor.md) -/

/-- The five power and SWR words of an accepted frame, at their offsets, low byte first (41_extractor.md R148). -/
def Obligations.AcceptedFrameLatchesItsWords : Prop :=
  ∀ (b : Byte) (s t : State) (f : Frame), s.decState = .acc → s.decCur = 71 → f = s.fb.set 71 b →
    (f.toList.map BitVec.toNat).sum % 256 = 0 →
    exec (.byteIn b) s = .next t →
    t.record.dc.toNat = f[8].toNat + 256 * f[9].toNat ∧
    t.record.drive.toNat = f[20].toNat + 256 * f[21].toNat ∧
    t.record.out.toNat = f[22].toNat + 256 * f[23].toNat ∧
    t.record.refl.toNat = f[24].toNat + 256 * f[25].toNat ∧
    t.record.swr.toNat = f[26].toNat + 256 * f[27].toNat

/-- The other fields of an accepted frame: temperature word, status and its suppress flag, fan, band, error code and its
flag (41_extractor.md sections 1 and 2). -/
def Obligations.AcceptedFrameLatchesItsCodes : Prop :=
  ∀ (b : Byte) (s t : State) (f : Frame), s.decState = .acc → s.decCur = 71 → f = s.fb.set 71 b →
    (f.toList.map BitVec.toNat).sum % 256 = 0 →
    exec (.byteIn b) s = .next t →
    t.record.temp.toNat = f[16].toNat + 256 * f[17].toNat ∧
    t.record.status.toNat = f[3].toNat / 16 ∧
    (t.record.suppress = true ↔ f[3].toNat / 16 = 10) ∧
    t.record.fan.toNat = f[69].toNat / 16 ∧
    t.record.band.toNat = f[69].toNat % 16 ∧
    t.record.err = f[66] ∧
    (t.record.errPresent = true ↔ f[66].toNat ≠ 255)

/-- Bytes and bits no rule names do not affect the record (41_extractor.md section 2, last rule but one). -/
def Obligations.UnnamedBytesDoNotReachTheRecord : Prop :=
  ∀ f g : Frame, f[3].toNat / 16 = g[3].toNat / 16 →
    (∀ k : Fin 72, k.val ∈ [8, 9, 16, 17, 20, 21, 22, 23, 24, 25, 26, 27, 66, 69] → f[k] = g[k]) →
    recordOf f = recordOf g

/-! ## The filter banks (42_filters.md) -/

/-- Push of v into channel ch overwrites the slot at the cursor and advances the cursor mod N; every other slot, N, the
other channels and the rest of the state stay (42_filters.md R160). The window is any that meets 10_state.md section 4's
ranges. -/
def Obligations.PushOverwritesAtTheCursor : Prop :=
  ∀ (ch : Channel) (v : Word) (s t : State) (k k' : Bank), k = bank ch s → k.Ok s.cfg.nMax →
    t = push ch v s → k' = bank ch t →
    k'.win.length = k.win.length ∧
    k'.win[k.wc.toNat]? = some v ∧
    (∀ j, j ≠ k.wc.toNat → k'.win[j]? = k.win[j]?) ∧
    k'.wc.toNat = (k.wc.toNat + 1) % k.n.toNat ∧
    k'.n = k.n ∧
    (∀ ch', ch' ≠ ch → bank ch' t = bank ch' s) ∧
    t = { s with banks := t.banks }

/-- The peak is the largest sample in the window, zeros included (42_filters.md section 2). -/
def Obligations.PeakIsTheLargestSample : Prop :=
  ∀ (nMax : Nat) (k : Bank), k.Ok nMax →
    (∃ i, i < k.n.toNat ∧ k.win[i]? = some k.peak) ∧
    ∀ i v, i < k.n.toNat → k.win[i]? = some v → v.toNat ≤ k.peak.toNat

/-- The SWR outputs never wrap: over the slots 0 to N - 1 of the SWR window, SWR_SUM is the exact sum of the samples in
its 20 bits, SWR_CNT the exact count of those that are not 0, and SWR_MEAN the floored quotient, 0 where the count is 0
(42_filters.md section 2; 00_scope.md section 7). -/
def Obligations.SwrOutputsNeverWrap : Prop :=
  ∀ (s : State) (slot : Nat → Nat) (slots : List Nat) (sum cnt : Nat),
    (∀ i, slot i = (s.banks.swr.win.getD i 0#16).toNat) → slots = List.range s.banks.swr.n.toNat →
    sum = (slots.map slot).sum → cnt = (slots.filter fun i => slot i ≠ 0).length →
    (csrRead 0x24#8 s).toNat + 65536 * (csrRead 0x25#8 s).toNat = sum ∧
    (csrRead 0x26#8 s).toNat = cnt ∧
    (csrRead 0x27#8 s).toNat = if cnt = 0 then 0 else sum / cnt

/-- SWR_MEAN = 0 happens exactly when SWR_CNT = 0, "no reading" (42_filters.md section 2). -/
def Obligations.MeanZeroExactlyWhenNoReading : Prop :=
  ∀ s : State, (csrRead 0x27#8 s = 0#16 ↔ csrRead 0x26#8 s = 0#16)

/-- After a clear, the window holds the last N samples pushed, or fewer with zeros in the remaining slots: slot i holds the
latest sample whose number is i mod N (42_filters.md section 2). -/
def Obligations.WindowHoldsTheLastSamples : Prop :=
  ∀ (nMax : Nat) (k : Bank) (vs : List Word), k.Ok nMax →
    let n := k.n.toNat
    let k' := vs.foldl (fun q v => q.push v) (k.clear nMax)
    k'.wc.toNat = vs.length % n ∧
    ∀ i, i < n →
      k'.win[i]? = if i < vs.length then vs[i + n * ((vs.length - 1 - i) / n)]? else some 0#16

/-! ## Commands and the TX FIFO (43_command_encoder.md) -/

/-- The datagram of command c: its body, then the byte that makes the sum 0 mod 256; byte 0 is 0x55 (30_encoding.md
R89). -/
def Obligations.DatagramIsBodyAndChecksum : Prop :=
  ∀ (cfg : Config) (c : Command),
    (∃ k : Byte, datagram cfg c = cfg.body c ++ [k] ∧
      k.toNat = (256 - ((cfg.body c).map BitVec.toNat).sum % 256) % 256) ∧
    (datagram cfg c)[0]? = some 0x55#8 ∧
    (datagram cfg c).length = (cfg.body c).length + 1 ∧
    ((datagram cfg c).map BitVec.toNat).sum % 256 = 0

/-- Encode(c), by the five CMD ops: the body with its checksum byte, a datagram of sum 0, is appended whole and logged
where it fits, else TX_DROP is raised and nothing is appended (43_command_encoder.md R191; the ops are CMD_ENABLE_TLM,
CMD_DISABLE_TLM, CMD_OPERATE, CMD_STANDBY, CMD_OFF). -/
def Obligations.CommandIsEnqueuedWholeOrDropped : Prop :=
  ∀ (i : Instr) (c : Command) (s : State) (dg : List Byte), commandOf? i = some c →
    dg = s.cfg.body c ++ [ckbyte (s.cfg.body c)] →
    ck8 dg = 0#8 ∧
    exec i s = .next
      (if dg.length ≤ s.cfg.txqDepth - s.txq.length then
        { s with txq := s.txq ++ dg, log := s.log ++ [.txEnq dg] }
      else
        { s with
          log := s.log ++ [.err .txDrop]
          err := true
          errCause := if s.err then s.errCause else some .txDrop })

/-- Every command completes with its datagram enqueued when the FIFO is empty, in every configuration, since TXQ_DEPTH is
at least L_MAX (00_scope.md section 4; 43_command_encoder.md section 2: CMD_ENABLE_TLM, CMD_DISABLE_TLM, CMD_OPERATE,
CMD_STANDBY, CMD_OFF). -/
def Obligations.EmptyFifoTakesEveryCommand : Prop :=
  ∀ (i : Instr) (c : Command) (s : State), commandOf? i = some c → s.txq = [] →
    exec i s = .next { s with
      txq := s.cfg.body c ++ [ckbyte (s.cfg.body c)]
      log := s.log ++ [.txEnq (s.cfg.body c ++ [ckbyte (s.cfg.body c)])] }

/-- TX_POP takes the head byte, which tx_data shows while tx_valid is high (43_command_encoder.md R197). -/
def Obligations.TxPopTakesTheHead : Prop :=
  ∀ (s : State) (b : Byte) (q : List Byte), s.txq = b :: q →
    txValid s = true ∧ txData s = some b ∧
    exec .txPop s = .next { s with txq := q, log := s.log ++ [.txByte b] }

/-- With the FIFO empty tx_valid is low and the transport's tx_ready does nothing (43_command_encoder.md section 3 for
"the transport has no step"; that tx_ready then leaves the state alone is log entry 6). -/
def Obligations.EmptyFifoIgnoresTheTransport : Prop :=
  ∀ s : State, s.txq = [] → txValid s = false ∧ exec .txPop s = .next s

/-- The transport takes bytes in the order CMD_ENCODE appended them. From every state, one that lost bytes to a RESET among
them, what was queued followed by what an op enqueues is what it takes followed by what is then queued; only RESET breaks
this. So the bytes taken, then the bytes queued, stay the bytes enqueued, from the reset state with its empty log on
(20_memory.md section 4). -/
def Obligations.FifoOrderIsKept : Prop :=
  (∀ c, FifoInOrder (State.initial c)) ∧
  (∀ (i : Instr) (s t : State), i ≠ .reset → exec i s = .next t →
    s.txq ++ (newEvents s t).flatMap Event.enqueued = (newEvents s t).flatMap Event.taken ++ t.txq) ∧
  ∀ s t : State, (∀ op rest, s.port ≠ .reset op :: rest) → step s = .next t →
    s.txq ++ (newEvents s t).flatMap Event.enqueued = (newEvents s t).flatMap Event.taken ++ t.txq ∧
    (FifoInOrder s → FifoInOrder t)

/-- Only a command takes free space from the FIFO: space seen by a read stays until the next command
(70_reset_and_hazards.md section 3). -/
def Obligations.OnlyCommandsUseFreeSpace : Prop :=
  ∀ (i : Instr) (s t : State), commandOf? i = none → exec i s = .next t → txFree s ≤ txFree t

/-! ## The CSR space (10_state.md section 7; 44_host_ops.md) -/

/-- mapped agrees with the map and with the list of unmapped addresses (10_state.md section 7; 44_host_ops.md
section 2). -/
def Obligations.UnmappedAddressesAreTheListed : Prop :=
  ∀ (cfg : Config) (a : BitVec 8),
    ((csrAt cfg.nMax a).isSome = mapped cfg.nMax a) ∧
    (mapped cfg.nMax a = false ↔
      a.toNat = 0x07 ∨ (0x0D ≤ a.toNat ∧ a.toNat ≤ 0x0F) ∨ (0x1A ≤ a.toNat ∧ a.toNat ≤ 0x1F) ∨
      (0x2D ≤ a.toNat ∧ a.toNat ≤ 0x2F) ∨
      (∃ ch i, ch ≤ 4 ∧ cfg.nMax ≤ i ∧ i ≤ 15 ∧ a.toNat = 0x30 + 16 * ch + i) ∨ 0xC8 ≤ a.toNat)

/-- Every register is found at its own address and no other: the map is one to one (10_state.md section 7). -/
def Obligations.CsrMapIsOneToOne : Prop :=
  ∀ cfg : Config,
    (∀ r, (∀ ch j, r = .win ch j → j.val < cfg.nMax) → csrAt cfg.nMax (csrAddr r) = some r) ∧
    (∀ a r, csrAt cfg.nMax a = some r → csrAddr r = a)

/-- CSR_READ: a mapped register's value goes to rdata and the log; an unmapped address answers 0x0000 and raises
CSR_UNMAPPED. A slot at or above N reads 0, a second read returns the same, and FILT_N_DRIVE reads 0x000A after reset
(44_host_ops.md R212). -/
def Obligations.CsrReadAnswers : Prop :=
  (∀ (a : BitVec 8) (s : State),
    exec (.csrRead a) s = .next
      (if mapped s.cfg.nMax a = true then
        { s with rdata := csrRead a s, log := s.log ++ [.read a (csrRead a s)] }
      else
        { s with
          rdata := 0#16
          log := s.log ++ [.read a 0#16, .err .csrUnmapped]
          err := true
          errCause := if s.err then s.errCause else some .csrUnmapped })) ∧
  (∀ (s : State) (ch : Channel) (i : Nat), s.Inv → (bank ch s).n.toNat ≤ i → i < s.cfg.nMax →
    csrRead (BitVec.ofNat 8 (0x30 + 16 * ch.number + i)) s = 0#16) ∧
  (∀ (a : BitVec 8) (s t u : State), exec (.csrRead a) s = .next t → exec (.csrRead a) t = .next u →
    u.rdata = t.rdata) ∧
  csrRead 0x08#8 State.reset = 0x000A#16

/-- STATUS: `{dec_cur[7:0], 0b00000, err, rec_valid, dec_state}`; a write is legal and acts through bit 2 alone; the reset
read value is 0x0000 (10_state.md R34). -/
def Obligations.StatusRegister : Prop :=
  (∀ s : State, (csrRead 0x01#8 s).toNat =
    256 * s.decCur.val + 4 * s.err.toNat + 2 * s.recValid.toNat + (if s.decState = .acc then 1 else 0)) ∧
  (∀ (d : Word) (s : State), exec (.csrWrite 0x01#8 d) s = .next
    (if d.getLsbD 2 = true then { s with err := false, errCause := none } else s)) ∧
  ∀ c, csrRead 0x01#8 (State.initial c) = 0#16

/-- CNT_OK, CNT_BADSUM, CNT_BADTAG and TXQ_LEVEL read the state they name; these and ERR_CAUSE are read-only and read 0
after reset (10_state.md R36). ERR_CAUSE reads the cause's code (60_exceptions.md section 1). -/
def Obligations.ErrorAndCounterRegisters : Prop :=
  (∀ s : State, (csrRead 0x02#8 s).toNat =
    (match s.errCause with
      | none => 0
      | some .illegalOp => 1
      | some .illegalCmd => 2
      | some .csrUnmapped => 3
      | some .csrReadOnly => 4
      | some .csrBadValue => 5
      | some .txDrop => 6)) ∧
  (∀ s : State, csrRead 0x03#8 s = s.cntOk ∧ csrRead 0x04#8 s = s.cntBadsum ∧ csrRead 0x05#8 s = s.cntBadtag) ∧
  (∀ s : State, s.Inv → (csrRead 0x06#8 s).toNat = s.txq.length) ∧
  ∀ a : BitVec 8, 0x02 ≤ a.toNat → a.toNat ≤ 0x06 →
    (∀ (d : Word) (s : State), exec (.csrWrite a d) s = .next { s with
      log := s.log ++ [.err .csrReadOnly]
      err := true
      errCause := if s.err then s.errCause else some .csrReadOnly }) ∧
    ∀ c, csrRead a (State.initial c) = 0#16

/-- The REC registers read the record's fields, undefined bits 0, are read-only, and read 0 after reset (10_state.md R38,
R39, R40, R41, R42). -/
def Obligations.RecordRegisters : Prop :=
  (∀ s : State,
    (csrRead 0x10#8 s).toNat = s.record.status.toNat + 16 * s.record.suppress.toNat ∧
    csrRead 0x11#8 s = s.record.temp ∧
    (csrRead 0x12#8 s).toNat = s.record.fan.toNat ∧
    (csrRead 0x13#8 s).toNat = s.record.band.toNat ∧
    (csrRead 0x14#8 s).toNat = s.record.err.toNat + 256 * s.record.errPresent.toNat ∧
    csrRead 0x15#8 s = s.record.drive ∧ csrRead 0x16#8 s = s.record.refl ∧ csrRead 0x17#8 s = s.record.out ∧
    csrRead 0x18#8 s = s.record.dc ∧ csrRead 0x19#8 s = s.record.swr) ∧
  ∀ a : BitVec 8, 0x10 ≤ a.toNat → a.toNat ≤ 0x19 →
    (∀ (d : Word) (s : State), exec (.csrWrite a d) s = .next { s with
      log := s.log ++ [.err .csrReadOnly]
      err := true
      errCause := if s.err then s.errCause else some .csrReadOnly }) ∧
    ∀ c, csrRead a (State.initial c) = 0#16

/-- The filter registers: lengths, cursors and slots of each channel, the four peaks, and the frame buffer, each at its
address (10_state.md section 7). -/
def Obligations.FilterAndFrameBufferRegisters : Prop :=
  ∀ s : State,
    (∀ ch : Channel,
      (csrRead (BitVec.ofNat 8 (0x08 + ch.number)) s).toNat = (bank ch s).n.toNat ∧
      (csrRead (BitVec.ofNat 8 (0x28 + ch.number)) s).toNat = (bank ch s).wc.toNat ∧
      (ch ≠ .swr → csrRead (BitVec.ofNat 8 (0x20 + ch.number)) s = (bank ch s).peak) ∧
      ∀ i, i < s.cfg.nMax →
        csrRead (BitVec.ofNat 8 (0x30 + 16 * ch.number + i)) s = (bank ch s).win.getD i 0#16) ∧
    ∀ i : Fin 72, (csrRead (BitVec.ofNat 8 (0x80 + i.val)) s).toNat = s.fb[i].toNat

/-- CSR_WRITE checks mapped, then writable, and an error writes nothing: every mapped address but 0x00, 0x01 and 0x08 to
0x0C is read-only (44_host_ops.md section 2). -/
def Obligations.CsrWriteErrorsWriteNothing : Prop :=
  ∀ (a : BitVec 8) (d : Word) (s : State),
    (mapped s.cfg.nMax a = false →
      exec (.csrWrite a d) s = .next { s with
        log := s.log ++ [.err .csrUnmapped]
        err := true
        errCause := if s.err then s.errCause else some .csrUnmapped }) ∧
    (mapped s.cfg.nMax a = true → ¬(a.toNat = 0x00 ∨ a.toNat = 0x01 ∨ (0x08 ≤ a.toNat ∧ a.toNat ≤ 0x0C)) →
      exec (.csrWrite a d) s = .next { s with
        log := s.log ++ [.err .csrReadOnly]
        err := true
        errCause := if s.err then s.errCause else some .csrReadOnly })

/-- A read of CTRL gives 0x0000 in every state. A write to it: bit 0 clears every window and cursor and keeps every length,
bit 1 returns the framer to IDLE and keeps fb, bit 2 clears the counters; any combination, and no event (10_state.md R33;
44_host_ops.md R221). -/
def Obligations.CtrlWriteActs : Prop :=
  (∀ s : State, csrRead 0x00#8 s = 0#16) ∧
  ∀ (d : Word) (s : State),
    ∃ t, exec (.csrWrite 0x00#8 d) s = .next t ∧
      (∀ ch, bank ch t =
        if d.getLsbD 0 = true then { win := List.replicate s.cfg.nMax 0#16, wc := 0#4, n := (bank ch s).n }
        else bank ch s) ∧
      t = { s with
        banks := t.banks
        decState := if d.getLsbD 1 = true then .idle else s.decState
        decCur := if d.getLsbD 1 = true then 0 else s.decCur
        cntOk := if d.getLsbD 2 = true then 0#16 else s.cntOk
        cntBadsum := if d.getLsbD 2 = true then 0#16 else s.cntBadsum
        cntBadtag := if d.getLsbD 2 = true then 0#16 else s.cntBadtag }

/-- FILT_N of channel ch reads N[ch], N_RESET after reset. A write of d, compared as a whole: a value in 1..N_MAX is the
new length, clears that channel's window and cursor alone, and applies from the next push; any other value raises
CSR_BAD_VALUE and changes nothing (10_state.md R37; 44_host_ops.md R222). -/
def Obligations.FiltNWriteSetsAndClears : Prop :=
  ∀ ch : Channel,
    (∀ s : State, (csrRead (BitVec.ofNat 8 (0x08 + ch.number)) s).toNat = (bank ch s).n.toNat) ∧
    (∀ c : Config, (csrRead (BitVec.ofNat 8 (0x08 + ch.number)) (State.initial c)).toNat = c.nReset) ∧
    ∀ (d : Word) (s : State),
      ∃ t, exec (.csrWrite (BitVec.ofNat 8 (0x08 + ch.number)) d) s = .next t ∧
        if 1 ≤ d.toNat ∧ d.toNat ≤ s.cfg.nMax then
          (bank ch t).n.toNat = d.toNat ∧ (bank ch t).wc = 0#4 ∧
          (bank ch t).win = List.replicate s.cfg.nMax 0#16 ∧
          (∀ ch', ch' ≠ ch → bank ch' t = bank ch' s) ∧
          t = { s with banks := t.banks } ∧
          ∀ v, (bank ch (push ch v t)).win[0]? = some v ∧ (bank ch (push ch v t)).wc.toNat = 1 % d.toNat
        else
          t = { s with
            log := s.log ++ [.err .csrBadValue]
            err := true
            errCause := if s.err then s.errCause else some .csrBadValue }

/-! ## Errors (60_exceptions.md) -/

/-- An op that raises an error has no effect but the error's; an unmapped read also sets rdata to 0 and logs the read
(60_exceptions.md section 2). -/
def Obligations.ErrorHasNoOtherEffect : Prop :=
  ∀ (i : Instr) (s t : State) (c : Cause), exec i s = .next t → Event.err c ∈ newEvents s t →
    ∃ es r, t = { s with
        log := s.log ++ es
        rdata := r
        err := true
        errCause := if s.err then s.errCause else some c } ∧
      ((es = [.err c] ∧ r = s.rdata) ∨ ∃ a, i = .csrRead a ∧ es = [.read a 0#16, .err c] ∧ r = 0#16)

/-- One op raises at most one cause, and none in a step with a framer event (60_exceptions.md section 1). -/
def Obligations.OneCausePerOp : Prop :=
  ∀ (i : Instr) (s t : State), exec i s = .next t →
    (newEvents s t).countP Event.isErr ≤ 1 ∧
    ((∃ f, Event.frameOk f ∈ newEvents s t) ∨ Event.badSum ∈ newEvents s t ∨ Event.badTag ∈ newEvents s t →
      (newEvents s t).countP Event.isErr = 0)

/-- While err = 1 the first cause is kept: only a write of 1 to STATUS bit 2, or RESET, changes err or err_cause
(60_exceptions.md section 2). -/
def Obligations.FirstCauseIsKept : Prop :=
  ∀ (i : Instr) (s t : State), s.err = true → exec i s = .next t → i ≠ .reset →
    (∀ d, i = .csrWrite 0x01#8 d → d.getLsbD 2 = false) → t.err = true ∧ t.errCause = s.errCause

/-- err = 1 blocks nothing and changes no op's behaviour: but for a read of STATUS or ERR_CAUSE themselves, two states that
differ only in the error state go to states that differ only there (60_exceptions.md section 2). -/
def Obligations.ErrorStateBlocksNothing : Prop :=
  ∀ (i : Instr) (s t t' : State) (e : Bool) (q : Option Cause),
    i ≠ .csrRead 0x01#8 → i ≠ .csrRead 0x02#8 →
    exec i s = .next t → exec i { s with err := e, errCause := q } = .next t' →
    t = { t' with err := t.err, errCause := t.errCause }

/-! ## Reset (70_reset_and_hazards.md) and the invariants (10_state.md R51) -/

/-- RESET: every state element takes its reset value in one step, whatever the state; the log is kept and gains no event;
a word presented in the same cycle is not performed (70_reset_and_hazards.md section 1). -/
def Obligations.ResetRestoresEveryElement : Prop :=
  (∀ s : State, exec .reset s = .next {
      decState := .idle, decCur := 0, fb := Vector.replicate 72 0#8, record := Record.zero, recValid := false
      banks := ⟨Bank.initial s.cfg, Bank.initial s.cfg, Bank.initial s.cfg, Bank.initial s.cfg, Bank.initial s.cfg⟩
      cntOk := 0#16, cntBadsum := 0#16, cntBadtag := 0#16, err := false, errCause := none, txq := [], rdata := 0#16
      log := s.log, cfg := s.cfg, port := s.port }) ∧
  ∀ (s : State) (op : Option OpWord) (rest : List Cycle), s.port = .reset op :: rest →
    step s = .next { State.initial s.cfg with log := s.log, port := rest }

/-- After reset every CSR reads 0x0000 except FILT_N_DRIVE to FILT_N_SWR, which read N_RESET (70_reset_and_hazards.md
section 1). -/
def Obligations.ResetReadValues : Prop :=
  ∀ (s t : State) (a : BitVec 8), exec .reset s = .next t →
    (csrRead a t).toNat = if 0x08 ≤ a.toNat ∧ a.toNat ≤ 0x0C then s.cfg.nReset else 0

/-- The reset state of every configuration, that of this hardware among them, meets the invariants and steps on: with a
NOP presented it completes (10_state.md section 8; 70_reset_and_hazards.md section 1). -/
def Obligations.ResetMeetsTheInvariants : Prop :=
  (∀ c, (State.initial c).Inv ∧ FramerSynced (State.initial c) ∧ FramesValid (State.initial c)) ∧
  State.reset.Inv ∧ step (State.reset.withFetchWord 32 0) = .next State.reset

/-- Every step keeps the invariants of 10_state.md section 8, from every state that meets them. -/
def Obligations.StepKeepsTheInvariants : Prop :=
  ∀ s t : State, s.Inv → step s = .next t → t.Inv

/-- Every FrameOk in the log is a telemetry frame: 0x55, 0x2F, sum 0 mod 256; every step keeps it, with what the frame
buffer holds during an acquisition (40_framer.md section 2). -/
def Obligations.StepKeepsLoggedFramesValid : Prop :=
  ∀ s t : State, s.Inv → FramerSynced s → FramesValid s → step s = .next t → FramerSynced t ∧ FramesValid t

/-- Whatever its agents drive, a core's state meets the invariants and its log holds telemetry frames only (10_state.md
section 8; 40_framer.md section 2). -/
def Obligations.ReachableStatesAreSound : Prop :=
  ∀ s : State, Reachable s → s.Inv ∧ FramerSynced s ∧ FramesValid s
end

