-- ==== Sys2Proof/Laws/Bank.lean ====
section
/-! SUPPORT. What pushing and clearing do to a window in order, and the policies over it (42_filters.md). -/

namespace Sys2Proof.Machine

variable {nMax : Nat} {k : Bank}

/-! ## Push and clear keep a window in order -/

@[simp] theorem Bank.push_n (v : Word) (k : Bank) : (k.push v).n = k.n := rfl

@[simp] theorem Bank.push_win (v : Word) (k : Bank) : (k.push v).win = k.win.set k.wc.toNat v := rfl

@[simp] theorem Bank.clear_n (nMax : Nat) (k : Bank) : (k.clear nMax).n = k.n := rfl

@[simp] theorem Bank.clear_wc (nMax : Nat) (k : Bank) : (k.clear nMax).wc = 0#4 := rfl

@[simp] theorem Bank.clear_win (nMax : Nat) (k : Bank) : (k.clear nMax).win = List.replicate nMax 0#16 := rfl

/-- The cursor after a push, exactly: N fits its 4 bits, so nothing is cut off (42_filters.md R160). -/
theorem Bank.push_wc_toNat (v : Word) (h : k.Ok nMax) :
    (k.push v).wc.toNat = (k.wc.toNat + 1) % k.n.toNat := by
  have hn := k.n.isLt
  have hm := Nat.mod_lt (k.wc.toNat + 1) h.one_le_n
  simp only [Bank.push, BitVec.toNat_ofNat]
  exact Nat.mod_eq_of_lt (by omega)

theorem Bank.Ok.push (v : Word) (h : k.Ok nMax) : (k.push v).Ok nMax where
  slots := by simpa using h.slots
  one_le_n := h.one_le_n
  n_le := h.n_le
  wc_lt := by
    rw [Bank.push_wc_toNat v h]
    exact Nat.mod_lt _ h.one_le_n
  above_zero := by
    intro i hi
    have hne : k.wc.toNat ≠ i := by
      have := h.wc_lt
      simp only [Bank.push_n] at hi
      omega
    have := h.above_zero i hi
    simpa [List.getD_eq_getElem?_getD, List.getElem?_set, hne] using this

/-- A cleared window is in order whatever it held, so long as its length is (42_filters.md R166). -/
theorem Bank.clear_ok (h1 : 1 ≤ k.n.toNat) (h2 : k.n.toNat ≤ nMax) : (k.clear nMax).Ok nMax where
  slots := by simp
  one_le_n := h1
  n_le := h2
  wc_lt := by simpa using Nat.lt_of_lt_of_le Nat.zero_lt_one h1
  above_zero := by
    intro i _
    simp [List.getD_eq_getElem?_getD, List.getElem?_replicate]
    split <;> rfl

theorem Bank.initial_ok (c : Config) : (Bank.initial c).Ok c.nMax := by
  have hok := c.ok
  simp only [Params.wf, Params.nMaxOk, Params.nResetOk, Bool.and_eq_true, decide_eq_true_eq] at hok
  have hn : (Bank.initial c).n.toNat = c.nReset := by
    simp only [Bank.initial, BitVec.toNat_ofNat, Config.nReset]
    exact Nat.mod_eq_of_lt (by omega)
  exact Bank.clear_ok (k := Bank.initial c) (by rw [hn]; exact hok.1.1.2.1) (by rw [hn]; exact hok.1.1.2.2)

/-! ## The window -/

theorem Bank.window_length (h : k.Ok nMax) : k.window.length = k.n.toNat := by
  simp only [Bank.window, List.length_take, h.slots]
  exact Nat.min_eq_left h.n_le

theorem Bank.window_length_le (k : Bank) : k.window.length ≤ 15 := by
  have := k.n.isLt
  simp only [Bank.window, List.length_take]
  omega

theorem Bank.mem_window_iff (k : Bank) (v : Word) : v ∈ k.window ↔ ∃ i, i < k.n.toNat ∧ k.win[i]? = some v := by
  simp only [Bank.window, List.mem_iff_getElem?, List.getElem?_take]
  constructor
  · rintro ⟨i, hi⟩
    split at hi
    · exact ⟨i, ‹_›, hi⟩
    · cases hi
  · rintro ⟨i, hi, hv⟩
    exact ⟨i, by rw [if_pos hi, hv]⟩

/-! ## Peak -/

theorem maxSample_eq (a b : Word) : maxSample a b = a ∨ maxSample a b = b := by
  unfold maxSample
  split <;> simp

theorem le_maxSample (a b : Word) : a.toNat ≤ (maxSample a b).toNat ∧ b.toNat ≤ (maxSample a b).toNat := by
  unfold maxSample
  split <;> omega

theorem le_foldr_maxSample (l : List Word) (v : Word) (h : v ∈ l) : v.toNat ≤ (l.foldr maxSample 0#16).toNat := by
  induction l with
  | nil => cases h
  | cons a l ih =>
    have hm := le_maxSample a (l.foldr maxSample 0#16)
    rcases List.mem_cons.mp h with rfl | h
    · exact hm.1
    · exact Nat.le_trans (ih h) hm.2

theorem foldr_maxSample_mem (l : List Word) : l.foldr maxSample 0#16 ∈ l ∨ l.foldr maxSample 0#16 = 0#16 := by
  induction l with
  | nil => simp
  | cons a l ih =>
    rcases maxSample_eq a (l.foldr maxSample 0#16) with h | h
    · left; simp [h]
    · rcases ih with ih | ih
      · left; simp [h, ih]
      · right; rw [List.foldr_cons, h, ih]

/-! ## Sum, count and mean -/

theorem sum_toNat_le (l : List Word) : (l.map BitVec.toNat).sum ≤ l.length * 65535 := by
  induction l with
  | nil => simp
  | cons a l ih =>
    have := a.isLt
    simp only [List.map_cons, List.sum_cons, List.length_cons]
    omega

/-- The samples that are not 0 alone make the sum (42_filters.md R163). -/
theorem sum_toNat_le_count (l : List Word) : (l.map BitVec.toNat).sum ≤ l.countP (fun v => v != 0#16) * 65535 := by
  induction l with
  | nil => simp
  | cons a l ih =>
    have := a.isLt
    by_cases h : a = 0#16
    · subst h; simpa using ih
    · have hb : (a != 0#16) = true := by simpa using h
      simp only [List.map_cons, List.sum_cons, List.countP_cons, hb, if_true]
      omega

theorem count_le_sum_toNat (l : List Word) : l.countP (fun v => v != 0#16) ≤ (l.map BitVec.toNat).sum := by
  induction l with
  | nil => simp
  | cons a l ih =>
    by_cases h : a = 0#16
    · subst h; simpa using ih
    · have hb : (a != 0#16) = true := by simpa using h
      have hpos : 0 < a.toNat := by
        rcases Nat.eq_zero_or_pos a.toNat with h0 | h0
        · exact absurd (BitVec.eq_of_toNat_eq h0) h
        · exact h0
      simp only [List.map_cons, List.sum_cons, List.countP_cons, hb, if_true]
      omega

/-- swr_sum over the slots 0 to N - 1, as 42_filters.md R163 writes it. -/
theorem Bank.sampleSum_eq_slots (k : Bank) :
    k.sampleSum = ((List.range k.n.toNat).map fun i => (k.win.getD i 0#16).toNat).sum := by
  unfold Bank.sampleSum Bank.window
  induction k.n.toNat with
  | zero => simp
  | succ m ih =>
    rw [List.range_succ, List.take_add_one]
    simp only [List.map_append, List.sum_append, ih, List.getD_eq_getElem?_getD]
    cases h : k.win[m]? <;> simp [h]

/-- swr_cnt over the slots 0 to N - 1, as 42_filters.md R163 writes it. -/
theorem Bank.nonzeroCount_eq_slots (k : Bank) :
    k.nonzeroCount = ((List.range k.n.toNat).filter fun i => (k.win.getD i 0#16).toNat ≠ 0).length := by
  unfold Bank.nonzeroCount Bank.window
  induction k.n.toNat with
  | zero => simp
  | succ m ih =>
    rw [List.range_succ, List.take_add_one]
    simp only [List.countP_append, List.filter_append, List.length_append, ih, List.getD_eq_getElem?_getD]
    congr 1
    cases h : k.win[m]? with
    | none => simp [h]
    | some v =>
      by_cases hv : v = 0#16
      · simp [h, hv]
      · have ht : v.toNat ≠ 0 := fun h0 => hv (BitVec.eq_of_toNat_eq h0)
        simp [h, hv, ht]

theorem Bank.nonzeroCount_le (k : Bank) : k.nonzeroCount ≤ 15 :=
  Nat.le_trans List.countP_le_length k.window_length_le

theorem Bank.sampleSum_le (k : Bank) : k.sampleSum ≤ 983025 := by
  have h1 := sum_toNat_le k.window
  have h2 := k.window_length_le
  unfold Bank.sampleSum
  omega

theorem Bank.nonzeroMean_le (k : Bank) : k.nonzeroMean ≤ 65535 := by
  unfold Bank.nonzeroMean
  split
  · omega
  · exact Nat.div_le_of_le_mul (sum_toNat_le_count k.window)

/-- A mean of samples that are not 0 is not 0 (42_filters.md R165). -/
theorem Bank.one_le_nonzeroMean (h : k.nonzeroCount ≠ 0) : 1 ≤ k.nonzeroMean := by
  unfold Bank.nonzeroMean
  rw [if_neg h]
  exact (Nat.one_le_div_iff (Nat.pos_of_ne_zero h)).mpr (count_le_sum_toNat k.window)

end Sys2Proof.Machine
end

