-- ==== Sys2Proof/Laws/Encoding.lean ====
section
/-! SUPPORT. Op words as numbers: every field is a quotient and a remainder of the word, every encoding a sum. -/

namespace Sys2Proof

theorem toNat_append_add {m n : Nat} (x : BitVec m) (y : BitVec n) :
    (x ++ y).toNat = x.toNat * 2 ^ n + y.toNat := by
  rw [BitVec.toNat_append, Nat.shiftLeft_eq, Nat.mul_comm, ← Nat.two_pow_add_eq_or_of_lt y.isLt]

/-! ## Fields -/

theorem opField_toNat (w : OpWord) : (opField w).toNat = w.toNat / 2 ^ 28 := by
  have h := w.isLt
  simp only [opField, BitVec.extractLsb'_toNat, Nat.shiftRight_eq_div_pow]
  omega

theorem belowOp_toNat (w : OpWord) : (belowOp w).toNat = w.toNat % 2 ^ 28 := by
  simp [belowOp, BitVec.extractLsb'_toNat]

theorem reservedField_toNat (w : OpWord) : (reservedField w).toNat = w.toNat % 2 ^ 28 / 2 ^ 24 := by
  simp only [reservedField, BitVec.extractLsb'_toNat, Nat.shiftRight_eq_div_pow]
  omega

theorem aboveByte_toNat (w : OpWord) : (aboveByte w).toNat = w.toNat % 2 ^ 28 / 2 ^ 8 := by
  simp only [aboveByte, BitVec.extractLsb'_toNat, Nat.shiftRight_eq_div_pow]
  omega

theorem aboveCmd_toNat (w : OpWord) : (aboveCmd w).toNat = w.toNat % 2 ^ 28 / 2 ^ 3 := by
  simp only [aboveCmd, BitVec.extractLsb'_toNat, Nat.shiftRight_eq_div_pow]
  omega

theorem aField_toNat (w : OpWord) : (aField w).toNat = w.toNat / 2 ^ 16 % 2 ^ 8 := by
  simp only [aField, BitVec.extractLsb'_toNat, Nat.shiftRight_eq_div_pow]

theorem dField_toNat (w : OpWord) : (dField w).toNat = w.toNat % 2 ^ 16 := by
  simp [dField, BitVec.extractLsb'_toNat]

theorem bField_toNat (w : OpWord) : (bField w).toNat = w.toNat % 2 ^ 8 := by
  simp [bField, BitVec.extractLsb'_toNat]

theorem cField_toNat (w : OpWord) : (cField w).toNat = w.toNat % 2 ^ 3 := by
  simp [cField, BitVec.extractLsb'_toNat]

/-- A field equals a value when their numbers are equal; the form the decoder's tests are rewritten with. -/
theorem field_eq_iff {n : Nat} (x y : BitVec n) : x = y ↔ x.toNat = y.toNat := BitVec.toNat_inj.symm

/-! ## Encodings -/

theorem byteIn_word_toNat (b : Byte) : (0x1#4 ++ 0#20 ++ b : OpWord).toNat = 2 ^ 28 + b.toNat := by
  rw [toNat_append_add, toNat_append_add]
  simp

theorem cmd_word_toNat (c : Command) : (encodeCmdWord c).toNat = 2 ^ 29 + c.id.toNat := by
  rw [encodeCmdWord, toNat_append_add, toNat_append_add]
  simp

theorem csrRead_word_toNat (a : BitVec 8) :
    (0x3#4 ++ 0#4 ++ a ++ 0#16 : OpWord).toNat = 3 * 2 ^ 28 + a.toNat * 2 ^ 16 := by
  rw [toNat_append_add, toNat_append_add, toNat_append_add]
  simp
  omega

theorem csrWrite_word_toNat (a : BitVec 8) (d : Word) :
    (0x4#4 ++ 0#4 ++ a ++ d : OpWord).toNat = 4 * 2 ^ 28 + a.toNat * 2 ^ 16 + d.toNat := by
  rw [toNat_append_add, toNat_append_add, toNat_append_add]
  simp
  omega

end Sys2Proof
end

