-- ==== Sys2Proof/Laws/State.lean ====
section
/-! SUPPORT. One lemma per field per named operation of Machine/Ops.lean, so that no proof unfolds a record update. -/

namespace Sys2Proof.Machine

variable (s : State)

/-! ## emit -/

@[simp] theorem emit_decState (e : Event) : (emit e s).decState = s.decState := rfl
@[simp] theorem emit_decCur (e : Event) : (emit e s).decCur = s.decCur := rfl
@[simp] theorem emit_fb (e : Event) : (emit e s).fb = s.fb := rfl
@[simp] theorem emit_record (e : Event) : (emit e s).record = s.record := rfl
@[simp] theorem emit_recValid (e : Event) : (emit e s).recValid = s.recValid := rfl
@[simp] theorem emit_banks (e : Event) : (emit e s).banks = s.banks := rfl
@[simp] theorem emit_cntOk (e : Event) : (emit e s).cntOk = s.cntOk := rfl
@[simp] theorem emit_cntBadsum (e : Event) : (emit e s).cntBadsum = s.cntBadsum := rfl
@[simp] theorem emit_cntBadtag (e : Event) : (emit e s).cntBadtag = s.cntBadtag := rfl
@[simp] theorem emit_err (e : Event) : (emit e s).err = s.err := rfl
@[simp] theorem emit_errCause (e : Event) : (emit e s).errCause = s.errCause := rfl
@[simp] theorem emit_txq (e : Event) : (emit e s).txq = s.txq := rfl
@[simp] theorem emit_log (e : Event) : (emit e s).log = s.log ++ [e] := rfl
@[simp] theorem emit_rdata (e : Event) : (emit e s).rdata = s.rdata := rfl
@[simp] theorem emit_cfg (e : Event) : (emit e s).cfg = s.cfg := rfl
@[simp] theorem emit_port (e : Event) : (emit e s).port = s.port := rfl

/-! ## clearErr -/

@[simp] theorem clearErr_decState : (clearErr s).decState = s.decState := rfl
@[simp] theorem clearErr_decCur : (clearErr s).decCur = s.decCur := rfl
@[simp] theorem clearErr_fb : (clearErr s).fb = s.fb := rfl
@[simp] theorem clearErr_record : (clearErr s).record = s.record := rfl
@[simp] theorem clearErr_recValid : (clearErr s).recValid = s.recValid := rfl
@[simp] theorem clearErr_banks : (clearErr s).banks = s.banks := rfl
@[simp] theorem clearErr_cntOk : (clearErr s).cntOk = s.cntOk := rfl
@[simp] theorem clearErr_cntBadsum : (clearErr s).cntBadsum = s.cntBadsum := rfl
@[simp] theorem clearErr_cntBadtag : (clearErr s).cntBadtag = s.cntBadtag := rfl
@[simp] theorem clearErr_err : (clearErr s).err = false := rfl
@[simp] theorem clearErr_errCause : (clearErr s).errCause = none := rfl
@[simp] theorem clearErr_txq : (clearErr s).txq = s.txq := rfl
@[simp] theorem clearErr_log : (clearErr s).log = s.log := rfl
@[simp] theorem clearErr_rdata : (clearErr s).rdata = s.rdata := rfl
@[simp] theorem clearErr_cfg : (clearErr s).cfg = s.cfg := rfl
@[simp] theorem clearErr_port : (clearErr s).port = s.port := rfl

/-! ## storeByte -/

@[simp] theorem storeByte_decState (i : Fin 72) (b : Byte) : (storeByte i b s).decState = s.decState := rfl
@[simp] theorem storeByte_decCur (i : Fin 72) (b : Byte) : (storeByte i b s).decCur = s.decCur := rfl
@[simp] theorem storeByte_fb (i : Fin 72) (b : Byte) : (storeByte i b s).fb = s.fb.set i.val b := rfl
@[simp] theorem storeByte_record (i : Fin 72) (b : Byte) : (storeByte i b s).record = s.record := rfl
@[simp] theorem storeByte_recValid (i : Fin 72) (b : Byte) : (storeByte i b s).recValid = s.recValid := rfl
@[simp] theorem storeByte_banks (i : Fin 72) (b : Byte) : (storeByte i b s).banks = s.banks := rfl
@[simp] theorem storeByte_cntOk (i : Fin 72) (b : Byte) : (storeByte i b s).cntOk = s.cntOk := rfl
@[simp] theorem storeByte_cntBadsum (i : Fin 72) (b : Byte) : (storeByte i b s).cntBadsum = s.cntBadsum := rfl
@[simp] theorem storeByte_cntBadtag (i : Fin 72) (b : Byte) : (storeByte i b s).cntBadtag = s.cntBadtag := rfl
@[simp] theorem storeByte_err (i : Fin 72) (b : Byte) : (storeByte i b s).err = s.err := rfl
@[simp] theorem storeByte_errCause (i : Fin 72) (b : Byte) : (storeByte i b s).errCause = s.errCause := rfl
@[simp] theorem storeByte_txq (i : Fin 72) (b : Byte) : (storeByte i b s).txq = s.txq := rfl
@[simp] theorem storeByte_log (i : Fin 72) (b : Byte) : (storeByte i b s).log = s.log := rfl
@[simp] theorem storeByte_rdata (i : Fin 72) (b : Byte) : (storeByte i b s).rdata = s.rdata := rfl
@[simp] theorem storeByte_cfg (i : Fin 72) (b : Byte) : (storeByte i b s).cfg = s.cfg := rfl
@[simp] theorem storeByte_port (i : Fin 72) (b : Byte) : (storeByte i b s).port = s.port := rfl

/-! ## accumulateAt -/

@[simp] theorem accumulateAt_decState (k : Fin 72) : (accumulateAt k s).decState = .acc := rfl
@[simp] theorem accumulateAt_decCur (k : Fin 72) : (accumulateAt k s).decCur = k := rfl
@[simp] theorem accumulateAt_fb (k : Fin 72) : (accumulateAt k s).fb = s.fb := rfl
@[simp] theorem accumulateAt_record (k : Fin 72) : (accumulateAt k s).record = s.record := rfl
@[simp] theorem accumulateAt_recValid (k : Fin 72) : (accumulateAt k s).recValid = s.recValid := rfl
@[simp] theorem accumulateAt_banks (k : Fin 72) : (accumulateAt k s).banks = s.banks := rfl
@[simp] theorem accumulateAt_cntOk (k : Fin 72) : (accumulateAt k s).cntOk = s.cntOk := rfl
@[simp] theorem accumulateAt_cntBadsum (k : Fin 72) : (accumulateAt k s).cntBadsum = s.cntBadsum := rfl
@[simp] theorem accumulateAt_cntBadtag (k : Fin 72) : (accumulateAt k s).cntBadtag = s.cntBadtag := rfl
@[simp] theorem accumulateAt_err (k : Fin 72) : (accumulateAt k s).err = s.err := rfl
@[simp] theorem accumulateAt_errCause (k : Fin 72) : (accumulateAt k s).errCause = s.errCause := rfl
@[simp] theorem accumulateAt_txq (k : Fin 72) : (accumulateAt k s).txq = s.txq := rfl
@[simp] theorem accumulateAt_log (k : Fin 72) : (accumulateAt k s).log = s.log := rfl
@[simp] theorem accumulateAt_rdata (k : Fin 72) : (accumulateAt k s).rdata = s.rdata := rfl
@[simp] theorem accumulateAt_cfg (k : Fin 72) : (accumulateAt k s).cfg = s.cfg := rfl
@[simp] theorem accumulateAt_port (k : Fin 72) : (accumulateAt k s).port = s.port := rfl

/-! ## framerToIdle -/

@[simp] theorem framerToIdle_decState : (framerToIdle s).decState = .idle := rfl
@[simp] theorem framerToIdle_decCur : (framerToIdle s).decCur = 0 := rfl
@[simp] theorem framerToIdle_fb : (framerToIdle s).fb = s.fb := rfl
@[simp] theorem framerToIdle_record : (framerToIdle s).record = s.record := rfl
@[simp] theorem framerToIdle_recValid : (framerToIdle s).recValid = s.recValid := rfl
@[simp] theorem framerToIdle_banks : (framerToIdle s).banks = s.banks := rfl
@[simp] theorem framerToIdle_cntOk : (framerToIdle s).cntOk = s.cntOk := rfl
@[simp] theorem framerToIdle_cntBadsum : (framerToIdle s).cntBadsum = s.cntBadsum := rfl
@[simp] theorem framerToIdle_cntBadtag : (framerToIdle s).cntBadtag = s.cntBadtag := rfl
@[simp] theorem framerToIdle_err : (framerToIdle s).err = s.err := rfl
@[simp] theorem framerToIdle_errCause : (framerToIdle s).errCause = s.errCause := rfl
@[simp] theorem framerToIdle_txq : (framerToIdle s).txq = s.txq := rfl
@[simp] theorem framerToIdle_log : (framerToIdle s).log = s.log := rfl
@[simp] theorem framerToIdle_rdata : (framerToIdle s).rdata = s.rdata := rfl
@[simp] theorem framerToIdle_cfg : (framerToIdle s).cfg = s.cfg := rfl
@[simp] theorem framerToIdle_port : (framerToIdle s).port = s.port := rfl

/-! ## clearCounters -/

@[simp] theorem clearCounters_decState : (clearCounters s).decState = s.decState := rfl
@[simp] theorem clearCounters_decCur : (clearCounters s).decCur = s.decCur := rfl
@[simp] theorem clearCounters_fb : (clearCounters s).fb = s.fb := rfl
@[simp] theorem clearCounters_record : (clearCounters s).record = s.record := rfl
@[simp] theorem clearCounters_recValid : (clearCounters s).recValid = s.recValid := rfl
@[simp] theorem clearCounters_banks : (clearCounters s).banks = s.banks := rfl
@[simp] theorem clearCounters_cntOk : (clearCounters s).cntOk = 0#16 := rfl
@[simp] theorem clearCounters_cntBadsum : (clearCounters s).cntBadsum = 0#16 := rfl
@[simp] theorem clearCounters_cntBadtag : (clearCounters s).cntBadtag = 0#16 := rfl
@[simp] theorem clearCounters_err : (clearCounters s).err = s.err := rfl
@[simp] theorem clearCounters_errCause : (clearCounters s).errCause = s.errCause := rfl
@[simp] theorem clearCounters_txq : (clearCounters s).txq = s.txq := rfl
@[simp] theorem clearCounters_log : (clearCounters s).log = s.log := rfl
@[simp] theorem clearCounters_rdata : (clearCounters s).rdata = s.rdata := rfl
@[simp] theorem clearCounters_cfg : (clearCounters s).cfg = s.cfg := rfl
@[simp] theorem clearCounters_port : (clearCounters s).port = s.port := rfl

/-! ## setBank -/

@[simp] theorem setBank_decState (ch : Channel) (k : Bank) : (setBank ch k s).decState = s.decState := rfl
@[simp] theorem setBank_decCur (ch : Channel) (k : Bank) : (setBank ch k s).decCur = s.decCur := rfl
@[simp] theorem setBank_fb (ch : Channel) (k : Bank) : (setBank ch k s).fb = s.fb := rfl
@[simp] theorem setBank_record (ch : Channel) (k : Bank) : (setBank ch k s).record = s.record := rfl
@[simp] theorem setBank_recValid (ch : Channel) (k : Bank) : (setBank ch k s).recValid = s.recValid := rfl
@[simp] theorem setBank_banks (ch : Channel) (k : Bank) : (setBank ch k s).banks = s.banks.put ch k := rfl
@[simp] theorem setBank_cntOk (ch : Channel) (k : Bank) : (setBank ch k s).cntOk = s.cntOk := rfl
@[simp] theorem setBank_cntBadsum (ch : Channel) (k : Bank) : (setBank ch k s).cntBadsum = s.cntBadsum := rfl
@[simp] theorem setBank_cntBadtag (ch : Channel) (k : Bank) : (setBank ch k s).cntBadtag = s.cntBadtag := rfl
@[simp] theorem setBank_err (ch : Channel) (k : Bank) : (setBank ch k s).err = s.err := rfl
@[simp] theorem setBank_errCause (ch : Channel) (k : Bank) : (setBank ch k s).errCause = s.errCause := rfl
@[simp] theorem setBank_txq (ch : Channel) (k : Bank) : (setBank ch k s).txq = s.txq := rfl
@[simp] theorem setBank_log (ch : Channel) (k : Bank) : (setBank ch k s).log = s.log := rfl
@[simp] theorem setBank_rdata (ch : Channel) (k : Bank) : (setBank ch k s).rdata = s.rdata := rfl
@[simp] theorem setBank_cfg (ch : Channel) (k : Bank) : (setBank ch k s).cfg = s.cfg := rfl
@[simp] theorem setBank_port (ch : Channel) (k : Bank) : (setBank ch k s).port = s.port := rfl

/-! ## push -/

@[simp] theorem push_decState (ch : Channel) (v : Word) : (push ch v s).decState = s.decState := rfl
@[simp] theorem push_decCur (ch : Channel) (v : Word) : (push ch v s).decCur = s.decCur := rfl
@[simp] theorem push_fb (ch : Channel) (v : Word) : (push ch v s).fb = s.fb := rfl
@[simp] theorem push_record (ch : Channel) (v : Word) : (push ch v s).record = s.record := rfl
@[simp] theorem push_recValid (ch : Channel) (v : Word) : (push ch v s).recValid = s.recValid := rfl
@[simp] theorem push_banks (ch : Channel) (v : Word) : (push ch v s).banks = s.banks.put ch ((s.banks.get ch).push v) := rfl
@[simp] theorem push_cntOk (ch : Channel) (v : Word) : (push ch v s).cntOk = s.cntOk := rfl
@[simp] theorem push_cntBadsum (ch : Channel) (v : Word) : (push ch v s).cntBadsum = s.cntBadsum := rfl
@[simp] theorem push_cntBadtag (ch : Channel) (v : Word) : (push ch v s).cntBadtag = s.cntBadtag := rfl
@[simp] theorem push_err (ch : Channel) (v : Word) : (push ch v s).err = s.err := rfl
@[simp] theorem push_errCause (ch : Channel) (v : Word) : (push ch v s).errCause = s.errCause := rfl
@[simp] theorem push_txq (ch : Channel) (v : Word) : (push ch v s).txq = s.txq := rfl
@[simp] theorem push_log (ch : Channel) (v : Word) : (push ch v s).log = s.log := rfl
@[simp] theorem push_rdata (ch : Channel) (v : Word) : (push ch v s).rdata = s.rdata := rfl
@[simp] theorem push_cfg (ch : Channel) (v : Word) : (push ch v s).cfg = s.cfg := rfl
@[simp] theorem push_port (ch : Channel) (v : Word) : (push ch v s).port = s.port := rfl

/-! ## clearWin -/

@[simp] theorem clearWin_decState (ch : Channel) : (clearWin ch s).decState = s.decState := rfl
@[simp] theorem clearWin_decCur (ch : Channel) : (clearWin ch s).decCur = s.decCur := rfl
@[simp] theorem clearWin_fb (ch : Channel) : (clearWin ch s).fb = s.fb := rfl
@[simp] theorem clearWin_record (ch : Channel) : (clearWin ch s).record = s.record := rfl
@[simp] theorem clearWin_recValid (ch : Channel) : (clearWin ch s).recValid = s.recValid := rfl
@[simp] theorem clearWin_banks (ch : Channel) : (clearWin ch s).banks = s.banks.put ch ((s.banks.get ch).clear s.cfg.nMax) := rfl
@[simp] theorem clearWin_cntOk (ch : Channel) : (clearWin ch s).cntOk = s.cntOk := rfl
@[simp] theorem clearWin_cntBadsum (ch : Channel) : (clearWin ch s).cntBadsum = s.cntBadsum := rfl
@[simp] theorem clearWin_cntBadtag (ch : Channel) : (clearWin ch s).cntBadtag = s.cntBadtag := rfl
@[simp] theorem clearWin_err (ch : Channel) : (clearWin ch s).err = s.err := rfl
@[simp] theorem clearWin_errCause (ch : Channel) : (clearWin ch s).errCause = s.errCause := rfl
@[simp] theorem clearWin_txq (ch : Channel) : (clearWin ch s).txq = s.txq := rfl
@[simp] theorem clearWin_log (ch : Channel) : (clearWin ch s).log = s.log := rfl
@[simp] theorem clearWin_rdata (ch : Channel) : (clearWin ch s).rdata = s.rdata := rfl
@[simp] theorem clearWin_cfg (ch : Channel) : (clearWin ch s).cfg = s.cfg := rfl
@[simp] theorem clearWin_port (ch : Channel) : (clearWin ch s).port = s.port := rfl

/-! ## setLength -/

@[simp] theorem setLength_decState (ch : Channel) (d : Word) : (setLength ch d s).decState = s.decState := rfl
@[simp] theorem setLength_decCur (ch : Channel) (d : Word) : (setLength ch d s).decCur = s.decCur := rfl
@[simp] theorem setLength_fb (ch : Channel) (d : Word) : (setLength ch d s).fb = s.fb := rfl
@[simp] theorem setLength_record (ch : Channel) (d : Word) : (setLength ch d s).record = s.record := rfl
@[simp] theorem setLength_recValid (ch : Channel) (d : Word) : (setLength ch d s).recValid = s.recValid := rfl
@[simp] theorem setLength_banks (ch : Channel) (d : Word) : (setLength ch d s).banks = s.banks.put ch { s.banks.get ch with n := d.setWidth 4 } := rfl
@[simp] theorem setLength_cntOk (ch : Channel) (d : Word) : (setLength ch d s).cntOk = s.cntOk := rfl
@[simp] theorem setLength_cntBadsum (ch : Channel) (d : Word) : (setLength ch d s).cntBadsum = s.cntBadsum := rfl
@[simp] theorem setLength_cntBadtag (ch : Channel) (d : Word) : (setLength ch d s).cntBadtag = s.cntBadtag := rfl
@[simp] theorem setLength_err (ch : Channel) (d : Word) : (setLength ch d s).err = s.err := rfl
@[simp] theorem setLength_errCause (ch : Channel) (d : Word) : (setLength ch d s).errCause = s.errCause := rfl
@[simp] theorem setLength_txq (ch : Channel) (d : Word) : (setLength ch d s).txq = s.txq := rfl
@[simp] theorem setLength_log (ch : Channel) (d : Word) : (setLength ch d s).log = s.log := rfl
@[simp] theorem setLength_rdata (ch : Channel) (d : Word) : (setLength ch d s).rdata = s.rdata := rfl
@[simp] theorem setLength_cfg (ch : Channel) (d : Word) : (setLength ch d s).cfg = s.cfg := rfl
@[simp] theorem setLength_port (ch : Channel) (d : Word) : (setLength ch d s).port = s.port := rfl

/-! ## txAppend -/

@[simp] theorem txAppend_decState (d : List Byte) : (txAppend d s).decState = s.decState := rfl
@[simp] theorem txAppend_decCur (d : List Byte) : (txAppend d s).decCur = s.decCur := rfl
@[simp] theorem txAppend_fb (d : List Byte) : (txAppend d s).fb = s.fb := rfl
@[simp] theorem txAppend_record (d : List Byte) : (txAppend d s).record = s.record := rfl
@[simp] theorem txAppend_recValid (d : List Byte) : (txAppend d s).recValid = s.recValid := rfl
@[simp] theorem txAppend_banks (d : List Byte) : (txAppend d s).banks = s.banks := rfl
@[simp] theorem txAppend_cntOk (d : List Byte) : (txAppend d s).cntOk = s.cntOk := rfl
@[simp] theorem txAppend_cntBadsum (d : List Byte) : (txAppend d s).cntBadsum = s.cntBadsum := rfl
@[simp] theorem txAppend_cntBadtag (d : List Byte) : (txAppend d s).cntBadtag = s.cntBadtag := rfl
@[simp] theorem txAppend_err (d : List Byte) : (txAppend d s).err = s.err := rfl
@[simp] theorem txAppend_errCause (d : List Byte) : (txAppend d s).errCause = s.errCause := rfl
@[simp] theorem txAppend_txq (d : List Byte) : (txAppend d s).txq = s.txq ++ d := rfl
@[simp] theorem txAppend_log (d : List Byte) : (txAppend d s).log = s.log := rfl
@[simp] theorem txAppend_rdata (d : List Byte) : (txAppend d s).rdata = s.rdata := rfl
@[simp] theorem txAppend_cfg (d : List Byte) : (txAppend d s).cfg = s.cfg := rfl
@[simp] theorem txAppend_port (d : List Byte) : (txAppend d s).port = s.port := rfl

/-! ## txDropHead -/

@[simp] theorem txDropHead_decState : (txDropHead s).decState = s.decState := rfl
@[simp] theorem txDropHead_decCur : (txDropHead s).decCur = s.decCur := rfl
@[simp] theorem txDropHead_fb : (txDropHead s).fb = s.fb := rfl
@[simp] theorem txDropHead_record : (txDropHead s).record = s.record := rfl
@[simp] theorem txDropHead_recValid : (txDropHead s).recValid = s.recValid := rfl
@[simp] theorem txDropHead_banks : (txDropHead s).banks = s.banks := rfl
@[simp] theorem txDropHead_cntOk : (txDropHead s).cntOk = s.cntOk := rfl
@[simp] theorem txDropHead_cntBadsum : (txDropHead s).cntBadsum = s.cntBadsum := rfl
@[simp] theorem txDropHead_cntBadtag : (txDropHead s).cntBadtag = s.cntBadtag := rfl
@[simp] theorem txDropHead_err : (txDropHead s).err = s.err := rfl
@[simp] theorem txDropHead_errCause : (txDropHead s).errCause = s.errCause := rfl
@[simp] theorem txDropHead_txq : (txDropHead s).txq = s.txq.tail := rfl
@[simp] theorem txDropHead_log : (txDropHead s).log = s.log := rfl
@[simp] theorem txDropHead_rdata : (txDropHead s).rdata = s.rdata := rfl
@[simp] theorem txDropHead_cfg : (txDropHead s).cfg = s.cfg := rfl
@[simp] theorem txDropHead_port : (txDropHead s).port = s.port := rfl

/-! ## setRdata -/

@[simp] theorem setRdata_decState (v : Word) : (setRdata v s).decState = s.decState := rfl
@[simp] theorem setRdata_decCur (v : Word) : (setRdata v s).decCur = s.decCur := rfl
@[simp] theorem setRdata_fb (v : Word) : (setRdata v s).fb = s.fb := rfl
@[simp] theorem setRdata_record (v : Word) : (setRdata v s).record = s.record := rfl
@[simp] theorem setRdata_recValid (v : Word) : (setRdata v s).recValid = s.recValid := rfl
@[simp] theorem setRdata_banks (v : Word) : (setRdata v s).banks = s.banks := rfl
@[simp] theorem setRdata_cntOk (v : Word) : (setRdata v s).cntOk = s.cntOk := rfl
@[simp] theorem setRdata_cntBadsum (v : Word) : (setRdata v s).cntBadsum = s.cntBadsum := rfl
@[simp] theorem setRdata_cntBadtag (v : Word) : (setRdata v s).cntBadtag = s.cntBadtag := rfl
@[simp] theorem setRdata_err (v : Word) : (setRdata v s).err = s.err := rfl
@[simp] theorem setRdata_errCause (v : Word) : (setRdata v s).errCause = s.errCause := rfl
@[simp] theorem setRdata_txq (v : Word) : (setRdata v s).txq = s.txq := rfl
@[simp] theorem setRdata_log (v : Word) : (setRdata v s).log = s.log := rfl
@[simp] theorem setRdata_rdata (v : Word) : (setRdata v s).rdata = v := rfl
@[simp] theorem setRdata_cfg (v : Word) : (setRdata v s).cfg = s.cfg := rfl
@[simp] theorem setRdata_port (v : Word) : (setRdata v s).port = s.port := rfl

/-! ## setPort -/

@[simp] theorem setPort_decState (p : List Cycle) : (setPort p s).decState = s.decState := rfl
@[simp] theorem setPort_decCur (p : List Cycle) : (setPort p s).decCur = s.decCur := rfl
@[simp] theorem setPort_fb (p : List Cycle) : (setPort p s).fb = s.fb := rfl
@[simp] theorem setPort_record (p : List Cycle) : (setPort p s).record = s.record := rfl
@[simp] theorem setPort_recValid (p : List Cycle) : (setPort p s).recValid = s.recValid := rfl
@[simp] theorem setPort_banks (p : List Cycle) : (setPort p s).banks = s.banks := rfl
@[simp] theorem setPort_cntOk (p : List Cycle) : (setPort p s).cntOk = s.cntOk := rfl
@[simp] theorem setPort_cntBadsum (p : List Cycle) : (setPort p s).cntBadsum = s.cntBadsum := rfl
@[simp] theorem setPort_cntBadtag (p : List Cycle) : (setPort p s).cntBadtag = s.cntBadtag := rfl
@[simp] theorem setPort_err (p : List Cycle) : (setPort p s).err = s.err := rfl
@[simp] theorem setPort_errCause (p : List Cycle) : (setPort p s).errCause = s.errCause := rfl
@[simp] theorem setPort_txq (p : List Cycle) : (setPort p s).txq = s.txq := rfl
@[simp] theorem setPort_log (p : List Cycle) : (setPort p s).log = s.log := rfl
@[simp] theorem setPort_rdata (p : List Cycle) : (setPort p s).rdata = s.rdata := rfl
@[simp] theorem setPort_cfg (p : List Cycle) : (setPort p s).cfg = s.cfg := rfl
@[simp] theorem setPort_port (p : List Cycle) : (setPort p s).port = p := rfl

/-! ## presentWord -/

@[simp] theorem presentWord_decState (w : OpWord) : (presentWord w s).decState = s.decState := rfl
@[simp] theorem presentWord_decCur (w : OpWord) : (presentWord w s).decCur = s.decCur := rfl
@[simp] theorem presentWord_fb (w : OpWord) : (presentWord w s).fb = s.fb := rfl
@[simp] theorem presentWord_record (w : OpWord) : (presentWord w s).record = s.record := rfl
@[simp] theorem presentWord_recValid (w : OpWord) : (presentWord w s).recValid = s.recValid := rfl
@[simp] theorem presentWord_banks (w : OpWord) : (presentWord w s).banks = s.banks := rfl
@[simp] theorem presentWord_cntOk (w : OpWord) : (presentWord w s).cntOk = s.cntOk := rfl
@[simp] theorem presentWord_cntBadsum (w : OpWord) : (presentWord w s).cntBadsum = s.cntBadsum := rfl
@[simp] theorem presentWord_cntBadtag (w : OpWord) : (presentWord w s).cntBadtag = s.cntBadtag := rfl
@[simp] theorem presentWord_err (w : OpWord) : (presentWord w s).err = s.err := rfl
@[simp] theorem presentWord_errCause (w : OpWord) : (presentWord w s).errCause = s.errCause := rfl
@[simp] theorem presentWord_txq (w : OpWord) : (presentWord w s).txq = s.txq := rfl
@[simp] theorem presentWord_log (w : OpWord) : (presentWord w s).log = s.log := rfl
@[simp] theorem presentWord_rdata (w : OpWord) : (presentWord w s).rdata = s.rdata := rfl
@[simp] theorem presentWord_cfg (w : OpWord) : (presentWord w s).cfg = s.cfg := rfl
@[simp] theorem presentWord_port (w : OpWord) : (presentWord w s).port = .run (some w) false :: s.port := rfl

/-! ## raiseErr -/

@[simp] theorem raiseErr_decState (c : Cause) : (raiseErr c s).decState = s.decState := by
  unfold raiseErr
  split <;> rfl
@[simp] theorem raiseErr_decCur (c : Cause) : (raiseErr c s).decCur = s.decCur := by
  unfold raiseErr
  split <;> rfl
@[simp] theorem raiseErr_fb (c : Cause) : (raiseErr c s).fb = s.fb := by
  unfold raiseErr
  split <;> rfl
@[simp] theorem raiseErr_record (c : Cause) : (raiseErr c s).record = s.record := by
  unfold raiseErr
  split <;> rfl
@[simp] theorem raiseErr_recValid (c : Cause) : (raiseErr c s).recValid = s.recValid := by
  unfold raiseErr
  split <;> rfl
@[simp] theorem raiseErr_banks (c : Cause) : (raiseErr c s).banks = s.banks := by
  unfold raiseErr
  split <;> rfl
@[simp] theorem raiseErr_cntOk (c : Cause) : (raiseErr c s).cntOk = s.cntOk := by
  unfold raiseErr
  split <;> rfl
@[simp] theorem raiseErr_cntBadsum (c : Cause) : (raiseErr c s).cntBadsum = s.cntBadsum := by
  unfold raiseErr
  split <;> rfl
@[simp] theorem raiseErr_cntBadtag (c : Cause) : (raiseErr c s).cntBadtag = s.cntBadtag := by
  unfold raiseErr
  split <;> rfl
@[simp] theorem raiseErr_err (c : Cause) : (raiseErr c s).err = true := by
  unfold raiseErr
  split
  · assumption
  · rfl
@[simp] theorem raiseErr_errCause (c : Cause) : (raiseErr c s).errCause = if s.err then s.errCause else some c := by
  unfold raiseErr
  split <;> rfl
@[simp] theorem raiseErr_txq (c : Cause) : (raiseErr c s).txq = s.txq := by
  unfold raiseErr
  split <;> rfl
@[simp] theorem raiseErr_log (c : Cause) : (raiseErr c s).log = s.log ++ [.err c] := by
  unfold raiseErr
  split <;> rfl
@[simp] theorem raiseErr_rdata (c : Cause) : (raiseErr c s).rdata = s.rdata := by
  unfold raiseErr
  split <;> rfl
@[simp] theorem raiseErr_cfg (c : Cause) : (raiseErr c s).cfg = s.cfg := by
  unfold raiseErr
  split <;> rfl
@[simp] theorem raiseErr_port (c : Cause) : (raiseErr c s).port = s.port := by
  unfold raiseErr
  split <;> rfl

/-- Everything recording an error does, as one record update (60_exceptions.md R243). -/
theorem raiseErr_eq (c : Cause) :
    raiseErr c s =
      { s with log := s.log ++ [.err c], err := true, errCause := if s.err then s.errCause else some c } := by
  cases s with
  | mk => rename_i e _ _ _ _ _ _; cases e <;> rfl

/-! ## Windows by channel -/

@[simp] theorem Banks.get_put_self (b : Banks) (ch : Channel) (k : Bank) : (b.put ch k).get ch = k := by
  cases ch <;> rfl

theorem Banks.get_put (b : Banks) (ch ch' : Channel) (k : Bank) :
    (b.put ch k).get ch' = if ch' = ch then k else b.get ch' := by
  cases ch <;> cases ch' <;> rfl

@[simp] theorem bank_setBank (ch ch' : Channel) (k : Bank) :
    bank ch' (setBank ch k s) = if ch' = ch then k else bank ch' s := Banks.get_put _ _ _ _

@[simp] theorem bank_push (ch ch' : Channel) (v : Word) :
    bank ch' (push ch v s) = if ch' = ch then (bank ch s).push v else bank ch' s := Banks.get_put _ _ _ _

@[simp] theorem bank_clearWin (ch ch' : Channel) :
    bank ch' (clearWin ch s) = if ch' = ch then (bank ch s).clear s.cfg.nMax else bank ch' s :=
  Banks.get_put _ _ _ _

@[simp] theorem bank_setLength (ch ch' : Channel) (d : Word) :
    bank ch' (setLength ch d s) = if ch' = ch then { bank ch s with n := d.setWidth 4 } else bank ch' s :=
  Banks.get_put _ _ _ _

/-- The window of a channel depends on the banks field alone. -/
theorem bank_congr {s t : State} (h : s.banks = t.banks) (ch : Channel) : bank ch s = bank ch t := by
  simp only [bank, h]

end Sys2Proof.Machine
end

