-- ==== Sys2Proof/Laws/Exec.lean ====
section
/-! SUPPORT. What exec of each op answers, as one equation, and what the shared operations can do. -/

namespace Sys2Proof.Machine

theorem exec_nop (s : State) : exec .nop s = .next s := rfl

theorem exec_byteIn (b : Byte) (s : State) : exec (.byteIn b) s = .next (byteIn b s) := rfl

theorem exec_csrRead (a : BitVec 8) (s : State) :
    exec (.csrRead a) s = .next (if mapped s.cfg.nMax a then readAnswer a (csrRead a s) s
      else raiseErr .csrUnmapped (readAnswer a 0#16 s)) := rfl

theorem exec_csrWrite (a : BitVec 8) (d : Word) (s : State) :
    exec (.csrWrite a d) s = .next (if mapped s.cfg.nMax a then
        if writable a then csrWrite a d s else raiseErr .csrReadOnly s
      else raiseErr .csrUnmapped s) := rfl

theorem exec_txPop (s : State) : exec .txPop s = .next (popByte s) := rfl

theorem exec_reset (s : State) : exec .reset s = .next (resetState s) := rfl

/-- RESET is the reset state of the configuration, with the log and the cycles to come kept (70_reset_and_hazards.md
R270). -/
theorem resetState_eq (s : State) : resetState s = { State.initial s.cfg with log := s.log, port := s.port } := rfl

/-! ## Rows of the framer's table (40_framer.md R122) -/

theorem byteIn_idle_sync {s : State} (h : s.decState = .idle) :
    byteIn 0x55#8 s = accumulateAt 1 (storeByte 0 0x55#8 s) := by
  rw [byteIn, h]
  rfl

theorem byteIn_idle_drop {s : State} {b : Byte} (h : s.decState = .idle) (hb : b ≠ 0x55#8) : byteIn b s = s := by
  rw [byteIn, h]
  exact if_neg hb

theorem byteIn_acc {s : State} (b : Byte) (h : s.decState = .acc) : byteIn b s = byteInAcc b s := by
  simp [byteIn, h]

/-- The last byte of a candidate frame completes it, whatever its value (40_framer.md R113). -/
theorem byteInAcc_last {s : State} (b : Byte) (h : s.decCur = 71) : byteInAcc b s = completeFrame (storeByte 71 b s) := by
  rw [byteInAcc, h, if_neg (by simp), if_pos (by rfl)]

theorem byteInAcc_next {s : State} {b : Byte} (ht : s.decCur.val = 1 → b = 0x2F#8) (hl : s.decCur.val < 71) :
    byteInAcc b s = accumulateAt (Fin.ofNat 72 (s.decCur.val + 1)) (storeByte s.decCur b s) := by
  rw [byteInAcc, if_neg (by rintro ⟨h, hb⟩; exact hb (ht (by omega))), if_neg (by omega)]

theorem byteInAcc_badTag {s : State} {b : Byte} (h : s.decCur = 1) (hb : b ≠ 0x2F#8) :
    byteInAcc b s = abandonTag (storeByte 1 b s) := by
  rw [byteInAcc, h, if_pos ⟨by rfl, hb⟩]

/-! ## Frame completion -/

@[simp] theorem pushAll_banks (s : State) : (pushAll s).banks =
    ⟨s.banks.drive.push s.record.drive, s.banks.refl.push s.record.refl, s.banks.out.push s.record.out,
      s.banks.dc.push s.record.dc, s.banks.swr.push s.record.swr⟩ := rfl

/-- Everything accepting a frame does, as one record update (40_framer.md R114). -/
theorem acceptFrame_eq (s : State) : acceptFrame s = { s with
    record := recordOf s.fb
    banks := ⟨s.banks.drive.push (recordOf s.fb).drive, s.banks.refl.push (recordOf s.fb).refl,
      s.banks.out.push (recordOf s.fb).out, s.banks.dc.push (recordOf s.fb).dc,
      s.banks.swr.push (recordOf s.fb).swr⟩
    recValid := true
    cntOk := s.cntOk + 1#16
    log := s.log ++ [.frameOk s.fb] } := rfl

/-- Everything rejecting a frame does, as one record update (40_framer.md R115). -/
theorem rejectFrame_eq (s : State) : rejectFrame s =
    { s with cntBadsum := s.cntBadsum + 1#16, log := s.log ++ [.badSum] } := rfl

/-- Everything abandoning an acquisition does, as one record update (40_framer.md R112). -/
theorem abandonTag_eq (s : State) : abandonTag s =
    { s with decState := .idle, decCur := 0, cntBadtag := s.cntBadtag + 1#16, log := s.log ++ [.badTag] } := rfl

/-- Everything a byte can do, with when it does it: the seven rows of 40_framer.md R122. -/
theorem byteIn_cases (b : Byte) (s : State) :
    (s.decState = .idle ∧ b = 0x55#8 ∧ byteIn b s = accumulateAt 1 (storeByte 0 b s)) ∨
    (s.decState = .idle ∧ b ≠ 0x55#8 ∧ byteIn b s = s) ∨
    (s.decState = .acc ∧ s.decCur = 1 ∧ b ≠ 0x2F#8 ∧ byteIn b s = abandonTag (storeByte 1 b s)) ∨
    (s.decState = .acc ∧ s.decCur.val < 71 ∧ (s.decCur.val = 1 → b = 0x2F#8) ∧
      byteIn b s = accumulateAt (Fin.ofNat 72 (s.decCur.val + 1)) (storeByte s.decCur b s)) ∨
    (s.decState = .acc ∧ s.decCur = 71 ∧ ck8 (s.fb.set 71 b).toList = 0#8 ∧
      byteIn b s = acceptFrame (framerToIdle (storeByte 71 b s))) ∨
    (s.decState = .acc ∧ s.decCur = 71 ∧ ck8 (s.fb.set 71 b).toList ≠ 0#8 ∧
      byteIn b s = rejectFrame (framerToIdle (storeByte 71 b s))) := by
  cases h : s.decState with
  | idle =>
    by_cases hb : b = 0x55#8
    · subst hb
      exact .inl ⟨rfl, rfl, byteIn_idle_sync h⟩
    · exact .inr (.inl ⟨rfl, hb, byteIn_idle_drop h hb⟩)
  | acc =>
    rw [byteIn_acc b h]
    by_cases ht : s.decCur.val = 1 ∧ b ≠ 0x2F#8
    · have hc : s.decCur = 1 := Fin.ext ht.1
      exact .inr (.inr (.inl ⟨rfl, hc, ht.2, byteInAcc_badTag hc ht.2⟩))
    · have ht' : s.decCur.val = 1 → b = 0x2F#8 := fun h1 => by
        by_contra h2
        exact ht ⟨h1, h2⟩
      by_cases hl : s.decCur.val < 71
      · exact .inr (.inr (.inr (.inl ⟨rfl, hl, ht', byteInAcc_next ht' hl⟩)))
      · have hc : s.decCur = 71 := Fin.ext (by have := s.decCur.isLt; show _ = 71; omega)
        rw [byteInAcc_last b hc]
        by_cases hs : ck8 (s.fb.set 71 b).toList = 0#8
        · exact .inr (.inr (.inr (.inr (.inl ⟨rfl, hc, hs, if_pos hs⟩))))
        · exact .inr (.inr (.inr (.inr (.inr ⟨rfl, hc, hs, if_neg hs⟩))))

/-! ## CSR writes -/

/-- FILT_CLR, one window after another; each clear sees the others' windows as they are (44_host_ops.md R221). -/
theorem clearAllWins_banks (s : State) : (clearAllWins s).banks =
    ⟨s.banks.drive.clear s.cfg.nMax, s.banks.refl.clear s.cfg.nMax, s.banks.out.clear s.cfg.nMax,
      s.banks.dc.clear s.cfg.nMax, s.banks.swr.clear s.cfg.nMax⟩ := by
  simp [clearAllWins, Banks.put, Banks.get]

theorem clearAllWins_eq (s : State) : clearAllWins s = { s with banks := (clearAllWins s).banks } := by
  simp only [clearAllWins, clearWin, setBank]

theorem bank_clearAllWins (ch : Channel) (s : State) : bank ch (clearAllWins s) = (bank ch s).clear s.cfg.nMax := by
  rw [bank, clearAllWins_banks]
  cases ch <;> rfl

/-- Everything a write of CTRL does, field by field (44_host_ops.md R221). -/
theorem ctrlWrite_eq (d : Word) (s : State) : ctrlWrite d s = { s with
    banks := if bitSet d 0 then (clearAllWins s).banks else s.banks
    decState := if bitSet d 1 then .idle else s.decState
    decCur := if bitSet d 1 then 0 else s.decCur
    cntOk := if bitSet d 2 then 0#16 else s.cntOk
    cntBadsum := if bitSet d 2 then 0#16 else s.cntBadsum
    cntBadtag := if bitSet d 2 then 0#16 else s.cntBadtag } := by
  unfold ctrlWrite
  generalize hc : clearAllWins s = t
  have ht : t = { s with banks := t.banks } := by
    rw [← hc]
    exact clearAllWins_eq s
  cases bitSet d 0 <;> cases bitSet d 1 <;> cases bitSet d 2 <;>
    simp only [if_true, if_false, Bool.false_eq_true, framerToIdle, clearCounters] <;> rw [ht]

/-- The addresses a write reaches, each with its effect (44_host_ops.md R211, R215). -/
theorem csrWrite_cases (a : BitVec 8) (d : Word) (s : State) (hw : writable a = true) :
    (a = 0x00#8 ∧ csrWrite a d s = ctrlWrite d s) ∨ (a = 0x01#8 ∧ csrWrite a d s = statusWrite d s) ∨
    ∃ ch : Channel, a.toNat = 0x08 + ch.number ∧ csrWrite a d s = filtNWrite ch d s := by
  simp only [writable, Bool.or_eq_true, Bool.and_eq_true, decide_eq_true_eq] at hw
  rcases hw with (h | h) | ⟨h1, h2⟩
  · have : a = 0x00#8 := BitVec.eq_of_toNat_eq h
    subst this
    exact .inl ⟨rfl, rfl⟩
  · have : a = 0x01#8 := BitVec.eq_of_toNat_eq h
    subst this
    exact .inr (.inl ⟨rfl, rfl⟩)
  · have h5 : a.toNat = 8 ∨ a.toNat = 9 ∨ a.toNat = 10 ∨ a.toNat = 11 ∨ a.toNat = 12 := by omega
    refine .inr (.inr ?_)
    rcases h5 with h | h | h | h | h
    · have : a = 0x08#8 := BitVec.eq_of_toNat_eq h
      subst this
      exact ⟨.drive, rfl, rfl⟩
    · have : a = 0x09#8 := BitVec.eq_of_toNat_eq h
      subst this
      exact ⟨.refl, rfl, rfl⟩
    · have : a = 0x0A#8 := BitVec.eq_of_toNat_eq h
      subst this
      exact ⟨.out, rfl, rfl⟩
    · have : a = 0x0B#8 := BitVec.eq_of_toNat_eq h
      subst this
      exact ⟨.dc, rfl, rfl⟩
    · have : a = 0x0C#8 := BitVec.eq_of_toNat_eq h
      subst this
      exact ⟨.swr, rfl, rfl⟩

/-- A write of FILT_N in its two cases (44_host_ops.md R222). -/
theorem filtNWrite_cases (ch : Channel) (d : Word) (s : State) :
    (1 ≤ d.toNat ∧ d.toNat ≤ s.cfg.nMax ∧ filtNWrite ch d s = clearWin ch (setLength ch d s)) ∨
    (¬(1 ≤ d.toNat ∧ d.toNat ≤ s.cfg.nMax) ∧ filtNWrite ch d s = raiseErr .csrBadValue s) := by
  by_cases h : d.toNat < 1 ∨ s.cfg.nMax < d.toNat
  · exact .inr ⟨by omega, if_pos h⟩
  · exact .inl ⟨by omega, by omega, if_neg h⟩

/-! ## Commands and the FIFO -/

/-- Encode(c) in its two cases, as record updates (43_command_encoder.md R191). -/
theorem encodeCommand_eq (c : Command) (s : State) : encodeCommand c s =
    if (datagram s.cfg c).length ≤ s.cfg.txqDepth - s.txq.length then
      { s with txq := s.txq ++ datagram s.cfg c, log := s.log ++ [.txEnq (datagram s.cfg c)] }
    else raiseErr .txDrop s := rfl

theorem popByte_cons {s : State} {b : Byte} {q : List Byte} (h : s.txq = b :: q) :
    popByte s = { s with txq := q, log := s.log ++ [.txByte b] } := by
  simp [popByte, h, emit, txDropHead]

theorem popByte_nil {s : State} (h : s.txq = []) : popByte s = s := by
  simp [popByte, h]

end Sys2Proof.Machine
end

