-- ==== Sys2Proof/Laws/Events.lean ====
section
/-! SUPPORT. What a step can do to the log, the FIFO and the fields no op of its kind writes: the inversion lemmas that a
proof over all ops cites. -/

namespace Sys2Proof.Machine

/-! ## Commands -/

/-- The five CMD ops are one operation, Encode of their command (43_command_encoder.md R192 to R196). -/
theorem exec_of_command {i : Instr} {c : Command} (s : State) (h : commandOf? i = some c) :
    exec i s = .next (encodeCommand c s) := by
  cases i <;> simp [commandOf?] at h <;> subst h <;> rfl

@[simp] theorem encodeCommand_port (c : Command) (s : State) : (encodeCommand c s).port = s.port := by
  rw [encodeCommand_eq]
  split <;> simp

@[simp] theorem encodeCommand_cfg (c : Command) (s : State) : (encodeCommand c s).cfg = s.cfg := by
  rw [encodeCommand_eq]
  split <;> simp

/-! ## Bytes -/

/-- What a received byte never touches (20_memory.md R71; 40_framer.md R110). -/
theorem byteIn_frame (b : Byte) (s : State) :
    (byteIn b s).cfg = s.cfg ∧ (byteIn b s).txq = s.txq ∧ (byteIn b s).err = s.err ∧
    (byteIn b s).errCause = s.errCause ∧ (byteIn b s).rdata = s.rdata ∧ (byteIn b s).port = s.port := by
  rcases byteIn_cases b s with h | h | h | h | h | h
  all_goals first | rw [h.2.2] | rw [h.2.2.2]
  all_goals simp [abandonTag_eq, acceptFrame_eq, rejectFrame_eq]

/-- What a received byte appends to the log: framer events alone, and a FrameOk exactly where the byte completes a frame
with a sum of 0 (40_framer.md R119). -/
theorem byteIn_log (b : Byte) (s : State) : ∃ es, (byteIn b s).log = s.log ++ es ∧
    (∀ e ∈ es, e = .badTag ∨ e = .badSum ∨
      (e = .frameOk (s.fb.set 71 b) ∧ s.decState = .acc ∧ s.decCur = 71 ∧ ck8 (s.fb.set 71 b).toList = 0#8)) ∧
    (s.decState = .acc → s.decCur = 71 → ck8 (s.fb.set 71 b).toList = 0#8 → es = [.frameOk (s.fb.set 71 b)]) := by
  rcases byteIn_cases b s with h | h | h | h | h | h
  · rw [h.2.2]
    exact ⟨[], by simp, by simp, by simp [h.1]⟩
  · rw [h.2.2]
    exact ⟨[], by simp, by simp, by simp [h.1]⟩
  · rw [h.2.2.2]
    exact ⟨[.badTag], by simp [abandonTag_eq], by simp, by simp [h.2.1]⟩
  · rw [h.2.2.2]
    exact ⟨[], by simp, by simp, fun _ h2 => by
      rw [h2] at h
      exact absurd h.2.1 (by decide)⟩
  · rw [h.2.2.2]
    exact ⟨[.frameOk (s.fb.set 71 b)], by simp [acceptFrame_eq], by simp [h.1, h.2.1, h.2.2.1], by simp⟩
  · rw [h.2.2.2]
    exact ⟨[.badSum], by simp [rejectFrame_eq], by simp, fun _ _ h3 => absurd h3 h.2.2.1⟩

/-! ## Writes -/

/-- What a write to a writable address never touches; its only event is CSR_BAD_VALUE (44_host_ops.md R214, R215). -/
theorem csrWrite_frame {a : BitVec 8} (d : Word) (s : State) (hw : writable a = true) :
    (csrWrite a d s).cfg = s.cfg ∧ (csrWrite a d s).txq = s.txq ∧ (csrWrite a d s).port = s.port ∧
    (csrWrite a d s).fb = s.fb ∧ (csrWrite a d s).record = s.record ∧ (csrWrite a d s).recValid = s.recValid ∧
    (csrWrite a d s).rdata = s.rdata ∧
    ((csrWrite a d s).log = s.log ∨ csrWrite a d s = raiseErr .csrBadValue s) := by
  rcases csrWrite_cases a d s hw with ⟨_, h⟩ | ⟨_, h⟩ | ⟨ch, _, h⟩ <;> rw [h]
  · simp [ctrlWrite_eq]
  · unfold statusWrite
    split <;> simp
  · rcases filtNWrite_cases ch d s with ⟨_, _, h⟩ | ⟨_, h⟩ <;> rw [h] <;> simp

/-! ## Any op -/

theorem newEvents_of_log {s t : State} {es : List Event} (h : t.log = s.log ++ es) : newEvents s t = es := by
  simp [newEvents, h]

@[simp] theorem newEvents_raiseErr (c : Cause) (s : State) : newEvents s (raiseErr c s) = [.err c] :=
  newEvents_of_log (by simp)

@[simp] theorem newEvents_unmappedRead (c : Cause) (a : BitVec 8) (s : State) :
    newEvents s (raiseErr c (readAnswer a 0#16 s)) = [.read a 0#16, .err c] :=
  newEvents_of_log (by simp [readAnswer])

/-- No op writes the configuration or the input port, and every op only appends to the log. -/
theorem exec_frame {i : Instr} {s t : State} (h : exec i s = .next t) :
    t.cfg = s.cfg ∧ t.port = s.port ∧ ∃ es, t.log = s.log ++ es := by
  cases hi : commandOf? i with
  | some c =>
    rw [exec_of_command s hi] at h
    cases h
    refine ⟨encodeCommand_cfg _ _, encodeCommand_port _ _, ?_⟩
    rw [encodeCommand_eq]
    split <;> simp
  | none =>
    cases i <;> simp [commandOf?] at hi <;> cases h
    case nop.refl => simp
    case byteIn.refl b =>
      obtain ⟨es, hl, _⟩ := byteIn_log b s
      exact ⟨(byteIn_frame b s).1, (byteIn_frame b s).2.2.2.2.2, es, hl⟩
    case csrRead.refl a => split <;> simp [readAnswer]
    case csrWrite.refl a d =>
      split
      · split
        · rename_i hw
          obtain ⟨h1, _, h3, _, _, _, _, h8 | h8⟩ := csrWrite_frame d s hw
          · exact ⟨h1, h3, [], by simp [h8]⟩
          · rw [h8]
            simp
        · simp
      · simp
    case txPop.refl =>
      unfold popByte
      split <;> simp
    case reset.refl => exact ⟨rfl, rfl, [], by simp [resetState]⟩

/-- What an op other than BYTE_IN and RESET does to the log and the FIFO: nothing, a datagram enqueued, a byte taken, a
read answered, or an error. -/
theorem exec_events {i : Instr} {s t : State} (h : exec i s = .next t) (hb : ∀ b, i ≠ .byteIn b) (hr : i ≠ .reset) :
    (newEvents s t = [] ∧ t.txq = s.txq) ∨
    (∃ c, commandOf? i = some c ∧ newEvents s t = [.txEnq (datagram s.cfg c)] ∧ t.txq = s.txq ++ datagram s.cfg c) ∨
    (∃ b, i = .txPop ∧ newEvents s t = [.txByte b] ∧ s.txq = b :: t.txq) ∨
    (∃ a v, i = .csrRead a ∧ newEvents s t = [.read a v] ∧ t.txq = s.txq) ∨
    (∃ a c, i = .csrRead a ∧ t = raiseErr c (readAnswer a 0#16 s)) ∨
    ∃ c, t = raiseErr c s := by
  cases hi : commandOf? i with
  | some c =>
    rw [exec_of_command s hi] at h
    cases h
    rw [encodeCommand_eq]
    split
    · exact .inr (.inl ⟨c, rfl, newEvents_of_log rfl, rfl⟩)
    · exact .inr (.inr (.inr (.inr (.inr ⟨_, rfl⟩))))
  | none =>
    cases i <;> simp [commandOf?] at hi <;> cases h
    case nop.refl => exact .inl ⟨newEvents_of_log (by simp), rfl⟩
    case byteIn.refl b => exact absurd rfl (hb b)
    case csrRead.refl a =>
      split
      · exact .inr (.inr (.inr (.inl ⟨a, _, rfl, newEvents_of_log rfl, rfl⟩)))
      · exact .inr (.inr (.inr (.inr (.inl ⟨a, _, rfl, rfl⟩))))
    case csrWrite.refl a d =>
      split
      · split
        · rename_i hw
          obtain ⟨_, h2, _, _, _, _, _, h8 | h8⟩ := csrWrite_frame d s hw
          · exact .inl ⟨newEvents_of_log (by simp [h8]), h2⟩
          · exact .inr (.inr (.inr (.inr (.inr ⟨_, h8⟩))))
        · exact .inr (.inr (.inr (.inr (.inr ⟨_, rfl⟩))))
      · exact .inr (.inr (.inr (.inr (.inr ⟨_, rfl⟩))))
    case txPop.refl =>
      cases hq : s.txq with
      | nil =>
        rw [popByte_nil hq]
        exact .inl ⟨newEvents_of_log (by simp), hq⟩
      | cons b q =>
        rw [popByte_cons hq]
        exact .inr (.inr (.inl ⟨b, rfl, newEvents_of_log rfl, rfl⟩))
    case reset.refl => exact absurd rfl hr

/-! ## Steps -/

/-- A step is idling, an op, or an illegal word, after the port moved on: what holds of those three holds of a step
(30_encoding.md R82; 70_reset_and_hazards.md R270). -/
theorem step_induction {P : State → State → Prop} (idle : ∀ s, P s s)
    (op : ∀ i s t, exec i s = .next t → P s t) (illegal : ∀ c s, P s (raiseErr c s))
    {s t : State} (h : step s = .next t) : ∃ p, P (setPort p s) t := by
  unfold step portStep at h
  split at h
  · rename_i hp
    cases h
    have hs : setPort [] s = s := by
      cases s
      simp_all [setPort]
    exact ⟨[], by rw [hs]; exact idle s⟩
  · exact ⟨_, op _ _ _ h⟩
  · unfold runWord at h
    split at h
    · exact ⟨_, op _ _ _ h⟩
    · cases h
      exact ⟨_, illegal _ _⟩
  · exact ⟨_, op _ _ _ h⟩
  · cases h
    exact ⟨_, idle _⟩

end Sys2Proof.Machine
end

