-- ==== Sys2Proof/Laws/Parameters.lean ====
section
/-! SUPPORT. What the constraints of 00_scope.md R8 give of any configuration. -/

namespace Sys2Proof

/-- 1 <= N_MAX <= 15 and 1 <= N_RESET <= N_MAX. -/
theorem Config.window_ranges (c : Config) : 1 ≤ c.nMax ∧ c.nMax ≤ 15 ∧ 1 ≤ c.nReset ∧ c.nReset ≤ c.nMax := by
  have h := c.ok
  simp only [Params.wf, Params.nMaxOk, Params.nResetOk, Bool.and_eq_true, decide_eq_true_eq] at h
  exact ⟨h.1.1.1.1, h.1.1.1.2, h.1.1.2.1, h.1.1.2.2⟩

/-- Every command begins with 0x55, and its datagram fits an empty FIFO. -/
theorem Config.body_ranges (c : Config) (x : Command) :
    (c.body x).head? = some 0x55#8 ∧ (c.body x).length + 1 ≤ c.txqDepth ∧ c.txqDepth ≤ 65535 := by
  have h := c.ok
  simp only [Params.wf, Params.bodiesOk, Params.txqDepthOk, Params.lMax, Command.all, Bool.and_eq_true,
    decide_eq_true_eq, List.all_cons, beq_iff_eq, List.map_cons, List.foldr_cons] at h
  obtain ⟨⟨_, h1⟩, h2, h3⟩ := h
  refine ⟨?_, ?_, h3⟩
  · cases x <;> tauto
  · unfold Config.body Config.txqDepth
    cases x <;> omega

end Sys2Proof
end

