-- ==== Sys2Proof/Laws/PerInstr.lean ====
section
/-! SUPPORT. Statements per instruction: the OP field and the reserved bits of each op word (30_encoding.md R80, R81). -/

namespace Sys2Proof.Laws.OpField

/-- The OP of 30_encoding.md R81, none for the two port steps. -/
def opCode : Instr → Option (BitVec 4)
  | .nop => some 0x0
  | .byteIn _ => some 0x1
  | .cmdEnableTlm | .cmdDisableTlm | .cmdOperate | .cmdStandby | .cmdOff => some 0x2
  | .csrRead _ => some 0x3
  | .csrWrite _ _ => some 0x4
  | .txPop | .reset => none

/-- The op word of i holds i's OP in bits 31:28 and zeros in the reserved bits 27:24. -/
def Statement (i : Instr) : Prop :=
  ∀ w, encode i = some w → opCode i = some (opField w) ∧ reservedField w = 0

/-- A word with number op * 2^28 + low, low below 2^24, has OP op and zeros in bits 27:24. -/
theorem fields_of_toNat {w : OpWord} {op : BitVec 4} {low : Nat} (h : w.toNat = op.toNat * 2 ^ 28 + low)
    (hl : low < 2 ^ 24) : some op = some (opField w) ∧ reservedField w = 0 := by
  constructor
  · rw [Option.some.injEq, field_eq_iff, opField_toNat]
    omega
  · rw [field_eq_iff, reservedField_toNat]
    show _ = 0
    omega

theorem nop : Statement .nop := by
  intro w h
  cases h
  exact fields_of_toNat (low := 0) rfl (by decide)

theorem byteIn (b : Byte) : Statement (.byteIn b) := by
  intro w h
  cases h
  exact fields_of_toNat (byteIn_word_toNat b) (by omega)

theorem cmdEnableTlm : Statement .cmdEnableTlm := by
  intro w h
  cases h
  exact fields_of_toNat (cmd_word_toNat _) (by decide)

theorem cmdDisableTlm : Statement .cmdDisableTlm := by
  intro w h
  cases h
  exact fields_of_toNat (cmd_word_toNat _) (by decide)

theorem cmdOperate : Statement .cmdOperate := by
  intro w h
  cases h
  exact fields_of_toNat (cmd_word_toNat _) (by decide)

theorem cmdStandby : Statement .cmdStandby := by
  intro w h
  cases h
  exact fields_of_toNat (cmd_word_toNat _) (by decide)

theorem cmdOff : Statement .cmdOff := by
  intro w h
  cases h
  exact fields_of_toNat (cmd_word_toNat _) (by decide)

theorem csrRead (a : BitVec 8) : Statement (.csrRead a) := by
  intro w h
  cases h
  exact fields_of_toNat (csrRead_word_toNat a) (by omega)

theorem csrWrite (a : BitVec 8) (d : Word) : Statement (.csrWrite a d) := by
  intro w h
  cases h
  refine fields_of_toNat (low := a.toNat * 2 ^ 16 + d.toNat) ?_ (by omega)
  rw [csrWrite_word_toNat, Nat.add_assoc]
  rfl

theorem txPop : Statement .txPop := by
  intro w h
  cases h

theorem reset : Statement .reset := by
  intro w h
  cases h

end Sys2Proof.Laws.OpField
end

