-- ==== Sys2Proof/Laws/Words.lean ====
section
/-! SUPPORT. The numbers behind the operand forms: the checksum as a sum of naturals, nibbles, little-endian words and
the STATUS word. -/

namespace Sys2Proof.Machine

@[simp] theorem ck8_nil : ck8 [] = 0#8 := rfl

@[simp] theorem ck8_cons (b : Byte) (s : List Byte) : ck8 (b :: s) = b + ck8 s := rfl

@[simp] theorem ck8_append (s t : List Byte) : ck8 (s ++ t) = ck8 s + ck8 t := by
  induction s with
  | nil => simp
  | cons b s ih => simp [ih, BitVec.add_assoc]

/-- ck8 is the sum of the bytes, as numbers, mod 256 (40_framer.md R118). -/
theorem ck8_toNat (s : List Byte) : (ck8 s).toNat = (s.map BitVec.toNat).sum % 256 := by
  induction s with
  | nil => rfl
  | cons b s ih => simp [ih, BitVec.toNat_add]

theorem ck8_eq_zero_iff (s : List Byte) : ck8 s = 0#8 ↔ (s.map BitVec.toNat).sum % 256 = 0 := by
  rw [← ck8_toNat, ← BitVec.toNat_inj]
  simp

/-- ckbyte makes a sequence sum to 0 (40_framer.md R118). -/
@[simp] theorem ck8_append_ckbyte (p : List Byte) : ck8 (p ++ [ckbyte p]) = 0#8 := by
  simp [ckbyte]

theorem ckbyte_toNat (p : List Byte) : (ckbyte p).toNat = (256 - (p.map BitVec.toNat).sum % 256) % 256 := by
  simp [ckbyte, ck8_toNat]

theorem highNibble_toNat (b : Byte) : (highNibble b).toNat = b.toNat / 16 := by
  have h := b.isLt
  simp only [highNibble, BitVec.extractLsb'_toNat, Nat.shiftRight_eq_div_pow]
  omega

theorem lowNibble_toNat (b : Byte) : (lowNibble b).toNat = b.toNat % 16 := by
  simp [lowNibble, BitVec.extractLsb'_toNat]

theorem leWord_toNat (lo hi : Byte) : (leWord lo hi).toNat = lo.toNat + 256 * hi.toNat := by
  have h := lo.isLt
  rw [leWord, BitVec.toNat_append, Nat.shiftLeft_eq, Nat.mul_comm, ← Nat.two_pow_add_eq_or_of_lt h]
  omega

end Sys2Proof.Machine
end

