-- ==== Sys2Proof/Tests/Slice0.lean ====
section
/-! SUPPORT. Tests: ill-formed parameters refused, words written out from spec/, worked values of 95_test_vectors.md one
step at a time, and a witness that meets the hypotheses of each obligation. -/

namespace Sys2Proof.Tests

open Sys2Proof.Machine

-- One proof at a time: many threads would each take their own share of the memory limit.
set_option Elab.async false

/-! ## A configuration and states to test with (95_test_vectors.md section 0) -/

/-- Table T: CMD_BODY[c] = [0x55, 0x10 + c, 0x00]. Invented there for testing. -/
def tableT : CmdTable where
  enableTelemetry := [0x55, 0x10, 0x00]
  disableTelemetry := [0x55, 0x11, 0x00]
  operate := [0x55, 0x12, 0x00]
  standby := [0x55, 0x13, 0x00]
  off := [0x55, 0x14, 0x00]

/-- The parameters of the vectors, with a FIFO of this depth. -/
def paramsT (depth : Nat) : Params := ⟨10, 10, tableT, depth⟩

def cfgT : Config := ⟨paramsT 64, by decide⟩

/-- TXQ_DEPTH = 8. -/
def cfgT8 : Config := ⟨paramsT 8, by decide⟩

/-- After reset, under table T. -/
def t0 : State := State.initial cfgT

/-- t0 with these cycles to come. -/
def driven (p : List Cycle) : State := { t0 with port := p }

/-- The state of a step that completed. -/
def after : Host.Outcome State Fault Refusal → Option State
  | .next t => some t
  | .fault _ => none
  | .refused _ => none

/-- What a field or a register shows after a step. -/
def see {α : Type} (f : State → α) (o : Host.Outcome State Fault Refusal) : Option α := (after o).map f

/-- A frame of zeros but for these bytes. -/
def frameOf (ps : List (Fin 72 × Byte)) : Frame := ps.foldl (fun f p => f.set p.1.val p.2) (Vector.replicate 72 0#8)

/-- Frame A, its f[71] from the listing. -/
def frameA : Frame := frameOf [(0, 0x55), (1, 0x2F), (3, 0x60), (8, 0xE8), (9, 0x03), (16, 0x19), (17, 0x01), (20, 0x64),
  (22, 0xF4), (23, 0x01), (24, 0x0A), (26, 0x96), (66, 0xFF), (69, 0x25), (71, 0xFA)]

/-- Frame S. -/
def frameS : Frame := frameOf [(0, 0x55), (1, 0x2F), (3, 0xA0), (20, 0x07), (66, 0x03), (69, 0x4F), (71, 0x83)]

/-- Frame Z. -/
def frameZ : Frame := frameOf [(0, 0x55), (1, 0x2F), (71, 0x7C)]

/-- Accumulating, with these bytes in the frame buffer and the cursor at cur. -/
def collecting (f : Frame) (cur : Fin 72) : State := { t0 with fb := f, decState := .acc, decCur := cur }

/-- A window of length 4 in 10 slots. -/
def window4 (a b c d : Word) (wc : BitVec 4) : Bank := ⟨[a, b, c, d] ++ List.replicate 6 0, wc, 4⟩

/-! ## Ill-formed terms are refused -/

theorem test_portStepsAreNoOpWords :
    Instr.txPop.wellFormed = false ∧ Instr.reset.wellFormed = false ∧ Instr.nop.wellFormed = true := by decide

theorem test_paramsT_accepted : (paramsT 64).wf = true ∧ (paramsT 4).wf = true ∧ (paramsT 65535).wf = true := by decide

theorem test_nMax_outside : ({ paramsT 64 with nMax := 0 } : Params).nMaxOk = false ∧
    ({ paramsT 64 with nMax := 16 } : Params).wf = false ∧ ({ paramsT 64 with nMax := 15 } : Params).wf = true := by decide

theorem test_nReset_outside : ({ paramsT 64 with nReset := 0 } : Params).wf = false ∧
    ({ paramsT 64 with nReset := 11 } : Params).wf = false ∧ ({ paramsT 64 with nReset := 1 } : Params).wf = true := by
  decide

theorem test_body_refused : ({ paramsT 64 with cmdBody := { tableT with off := [] } } : Params).wf = false ∧
    ({ paramsT 64 with cmdBody := { tableT with operate := [0x2F, 0x55] } } : Params).wf = false := by decide

theorem test_depth_outside : (paramsT 3).wf = false ∧ (paramsT 65536).wf = false ∧
    (Config.ofParams? (paramsT 3)).isSome = false := by decide

/-! ## Decoding, bit by bit (30_encoding.md R81; 95_test_vectors.md L2.7) -/

theorem test_decode_nop : decode 0b0000_0000000000000000000000000000#32 = .op .nop := by decide

theorem test_decode_byteIn : decode 0b0001_00000000000000000000_01111110#32 = .op (.byteIn 0x7E) := by decide

theorem test_decode_cmds :
    decode 0b0010_0000000000000000000000000_000#32 = .op .cmdEnableTlm ∧
    decode 0b0010_0000000000000000000000000_001#32 = .op .cmdDisableTlm ∧
    decode 0b0010_0000000000000000000000000_010#32 = .op .cmdOperate ∧
    decode 0b0010_0000000000000000000000000_011#32 = .op .cmdStandby ∧
    decode 0b0010_0000000000000000000000000_100#32 = .op .cmdOff ∧
    decode 0b0010_0000000000000000000000000_101#32 = .illegal .illegalCmd := by decide

theorem test_decode_csrRead : decode 0b0011_0000_10100101_0000000000000000#32 = .op (.csrRead 0xA5) := by decide

theorem test_decode_csrWrite :
    decode 0b0100_0000_00001100_1000000000000100#32 = .op (.csrWrite 0x0C 0x8004) := by decide

theorem test_decode_illegal :
    decode 0x50000000#32 = .illegal .illegalOp ∧ decode 0xF0000000#32 = .illegal .illegalOp ∧
    decode 0x00000001#32 = .illegal .illegalOp ∧ decode 0x30000001#32 = .illegal .illegalOp ∧
    decode 0x41000000#32 = .illegal .illegalOp ∧ decode 0x20000008#32 = .illegal .illegalOp := by decide

theorem test_encode_words :
    encode (.byteIn 0x55) = some 0x10000055#32 ∧ encode .cmdOff = some 0x20000004#32 ∧
    encode (.csrRead 0x30) = some 0x30300000#32 ∧ encode (.csrWrite 0x0C 4) = some 0x400C0004#32 := by decide

theorem test_tableWord : decodeTableWord 32 0x30010000 = some (.csrRead 1) ∧ decodeTableWord 32 0x50000000 = none := by
  decide

/-- A word presented at reset runs in the very next step (log entry 4). -/
theorem test_withFetchWord :
    see (fun t => (t.decCur, t.decState, t.port)) (step (t0.withFetchWord 32 0x10000055)) = some (1, .acc, []) := by decide

/-! ## Values of 95_test_vectors.md -/

/-- L2.1. -/
theorem test_checksum : ck8 [] = 0x00 ∧ ckbyte [0x55] = 0xAB ∧ ckbyte [0x55, 0x10, 0x00] = 0x9B ∧
    ck8 [0xFF, 0xFF] = 0xFE ∧ ckbyte [0xFF, 0xFF] = 0x02 := by decide

theorem test_checksum_frameA : ck8 frameA.toList = 0x00 := by decide +kernel

/-- L2.2: 55, then 55: the second is no new sync. -/
theorem test_byteIn_badTag :
    see (fun t => (csrRead 0x01 t, t.log, t.cntBadtag)) (exec (.byteIn 0x55) (collecting (frameOf [(0, 0x55)]) 1)) =
      some (0x0000, [.badTag], 1) := by decide

/-- L2.2 and L2.3: the last byte of frame A, and the last byte of TFRAME! {}. -/
theorem test_byteIn_last :
    see (fun t => (csrRead 0x01 t, t.log, csrRead 0x10 t, csrRead 0x14 t))
      (exec (.byteIn 0xFA) (collecting (frameA.set 71 0) 71)) = some (0x0002, [.frameOk frameA], 0x0006, 0x00FF) ∧
    see (fun t => (csrRead 0x01 t, t.log, csrRead 0xC7 t, t.cntBadsum)) (exec (.byteIn 0x7D) (collecting frameZ 71)) =
      some (0x0000, [.badSum], 0x007D, 1) := by decide +kernel

/-- L2.3: frame S. -/
theorem test_recordOf_frameS :
    (recordOf frameS).suppress = true ∧ (recordOf frameS).drive = 7 ∧ (recordOf frameS).fan = 4 ∧
    (recordOf frameS).band = 15 ∧ (recordOf frameS).err = 3 ∧ (recordOf frameS).errPresent = true := by decide

/-- L1-3: [5, 3, 9, 1], then 2. -/
theorem test_peak : (window4 5 3 9 1 0).peak = 9 ∧ ((window4 5 3 9 1 0).push 2).peak = 9 ∧
    (window4 5 3 9 1 0).push 2 = window4 2 3 9 1 1 ∧ (window4 0 0 0 5 3).push 7 = window4 0 0 0 7 0 := by decide

/-- L1-4, and ten samples 0xFFFF (L2.4). -/
theorem test_mean : (window4 0 0 4 6 0).nonzeroMean = 5 ∧ (window4 0 0 4 6 0).nonzeroCount = 2 ∧
    (window4 0 0 0 0 0).nonzeroMean = 0 ∧ (Bank.mk (List.replicate 10 0xFFFF) 0 10).sampleSum = 655350 := by decide

/-- L2.5: each command's datagram. -/
theorem test_commands :
    see State.txq (exec .cmdEnableTlm t0) = some [0x55, 0x10, 0x00, 0x9B] ∧
    see State.txq (exec .cmdDisableTlm t0) = some [0x55, 0x11, 0x00, 0x9A] ∧
    see State.txq (exec .cmdOperate t0) = some [0x55, 0x12, 0x00, 0x99] ∧
    see State.txq (exec .cmdStandby t0) = some [0x55, 0x13, 0x00, 0x98] ∧
    see State.log (exec .cmdOff t0) = some [.txEnq [0x55, 0x14, 0x00, 0x97]] := by decide

/-- L2.5: four bytes fit the last four places, and not three. -/
theorem test_command_room :
    see (fun t => (t.txq.length, t.err)) (exec .cmdOff { t0 with cfg := cfgT8, txq := [0, 1, 2, 3] }) = some (8, false) ∧
    see (fun t => (t.txq, t.log, csrRead 0x02 t)) (exec .cmdOff { t0 with cfg := cfgT8, txq := [0, 1, 2, 3, 4] }) =
      some ([0, 1, 2, 3, 4], [.err .txDrop], 6) := by decide

/-- L2.5. -/
theorem test_txPop :
    see (fun t => (t.txq, t.log, csrRead 0x06 t)) (exec .txPop { t0 with txq := [0x55, 0x10, 0x00, 0x9B] }) =
      some ([0x10, 0x00, 0x9B], [.txByte 0x55], 3) ∧
    see State.log (exec .txPop t0) = some [] := by decide

/-- L2.6 and L2.7. -/
theorem test_csrRead :
    see (fun t => (t.rdata, t.log)) (exec (.csrRead 0x08) t0) = some (0x000A, [.read 0x08 0x000A]) ∧
    see (fun t => (t.rdata, t.err)) (exec (.csrRead 0x39) t0) = some (0, false) ∧
    see State.log (exec (.csrRead 0x3A) { t0 with rdata := 7 }) = some [.read 0x3A 0, .err .csrUnmapped] := by decide

/-- L2.7, and the first row of L2.2 with 10 bytes: STATUS 0x0A01. -/
theorem test_csrRead_status :
    see State.rdata (exec (.csrRead 0x01) (collecting frameA 10)) = some 0x0A01 ∧
    see State.rdata (exec (.csrRead 0x89) (collecting frameA 10)) = some 0x0003 := by decide

/-- L2.6: WR FILT_N_SWR, 4; then values out of range (L2.7). -/
theorem test_csrWrite_filtN :
    see (fun t => (csrRead 0x0C t, csrRead 0x2C t, csrRead 0x0B t)) (exec (.csrWrite 0x0C 4) t0) = some (4, 0, 10) ∧
    see (fun t => (t.log, csrRead 0x08 t)) (exec (.csrWrite 0x08 0x000B) t0) = some ([.err .csrBadValue], 10) ∧
    see State.log (exec (.csrWrite 0x08 0x0104) t0) = some [.err .csrBadValue] := by decide

/-- L2.6 DRST and CLRERR, L2.7 read-only and unmapped. -/
theorem test_csrWrite_others :
    see (fun t => csrRead 0x01 t) (exec (.csrWrite 0x00 0x0002) (collecting frameA 2)) = some 0x0000 ∧
    see (fun t => (t.err, t.errCause)) (exec (.csrWrite 0x01 0x0004) { t0 with err := true, errCause := some .txDrop }) =
      some (false, none) ∧
    see State.log (exec (.csrWrite 0x11 0x0005) t0) = some [.err .csrReadOnly] ∧
    see State.log (exec (.csrWrite 0x07 0x0000) t0) = some [.err .csrUnmapped] := by decide

/-- A command fills the empty FIFO and the transport takes its first byte, one cycle and two steps (log entry 15). -/
theorem test_fill_and_take :
    (after (step (driven [.run (some 0x20000000#32) true]))).bind (fun t => see (fun u => (u.txq, u.port)) (step t)) =
      some ([0x10, 0x00, 0x9B], []) := by decide

/-- L2.8: reset in the middle of an acquisition, with a datagram queued; the log stays. -/
theorem test_reset :
    see (fun t => (csrRead 0x01 t, csrRead 0x06 t, t.log))
      (exec .reset { collecting frameA 2 with txq := [0x55], log := [.txEnq [0x55]] }) =
      some (0x0000, 0, [.txEnq [0x55]]) := by decide

/-- L2.7: the first cause is kept. -/
theorem test_firstCause :
    see (fun t => (t.log, csrRead 0x02 t, csrRead 0x01 t)) (runWord 0x20000007#32 (raiseErr .illegalOp t0)) =
      some ([.err .illegalOp, .err .illegalCmd], 1, 0x0004) := by decide

/-- 30_encoding.md R91: the words of a TFRAME and of SETN. -/
theorem test_tframe : (tframeBytes [(16, 0x19), (17, 0x01), (66, 0xFF)])[71]? = some 0x63 := by decide +kernel

theorem test_assemble :
    assemble (.setN .swr 4) = some [0x400C0004#32] ∧ assemble .drst = some [0x40000002#32] ∧
    assemble (.tframe [(71, 0)]) = none := by decide

/-! ## A witness for the hypotheses of each obligation -/

theorem t0_inv : t0.Inv :=
  ⟨by decide, by intro ch; cases ch <;> exact Bank.initial_ok cfgT, by decide, by decide, by decide⟩

theorem t0_synced : FramerSynced t0 ∧ FramesValid t0 := ⟨fun h => (by cases h), fun f h => (by cases h)⟩

/-- An acquisition with its sync byte and type tag in place, before its last byte. -/
def last : State := collecting frameZ 71

theorem last_inv : last.Inv :=
  ⟨by decide, by intro ch; cases ch <;> exact Bank.initial_ok cfgT, by decide, by decide, by decide⟩

theorem last_synced : FramerSynced last ∧ FramesValid last :=
  ⟨fun _ => ⟨by decide, fun _ => by decide⟩, fun f h => (by cases h)⟩

/-- Every constraint at both ends of its range, and one step outside. -/
theorem test_witness_OnlyWellFormedParametersConfigure :
    (paramsT 4).wf = true ∧ (paramsT 65535).wf = true ∧ (paramsT 3).wf = false ∧ (paramsT 65536).wf = false ∧
    Config.hardwareDepth 64 = 64 ∧ (64 : Nat) ≤ 65535 := by decide

theorem test_witness_DecodeReadsBackEveryEncoding :
    (Instr.csrWrite 0xFF 0xFFFF).wellFormed = true ∧ Instr.reset.wellFormed = false := by decide

theorem test_witness_EveryLegalWordIsAnEncoding :
    decode 0x40FFFFFF#32 = .op (.csrWrite 0xFF 0xFFFF) ∧ decode 0x100000FF#32 = .op (.byteIn 0xFF) := by decide

/-- The words at the ends of each op's range. -/
theorem test_witness_DecodeFollowsTheWordsNumber :
    decode 0x0FFFFFFF#32 = .illegal .illegalOp ∧ decode 0x10000000#32 = .op (.byteIn 0) ∧
    decode 0x10000100#32 = .illegal .illegalOp ∧ decode 0x20000004#32 = .op .cmdOff ∧
    decode 0x20000005#32 = .illegal .illegalCmd ∧ decode 0x20000007#32 = .illegal .illegalCmd ∧
    decode 0x20000008#32 = .illegal .illegalOp ∧ decode 0x30FF0000#32 = .op (.csrRead 0xFF) ∧
    decode 0x31000000#32 = .illegal .illegalOp ∧ decode 0x40000000#32 = .op (.csrWrite 0 0) ∧
    decode 0x4FFFFFFF#32 = .illegal .illegalOp ∧ decode 0xFFFFFFFF#32 = .illegal .illegalOp := by decide

theorem test_witness_AssemblerWordsDecode : commandOf? .cmdOff = some .off := by decide

theorem test_witness_TframeMeetsTheChecksum :
    tframeFieldsOk [(2, 0xFF), (70, 0x55)] = true ∧ (2, (0xFF : Byte)) ∈ [(2, (0xFF : Byte)), (70, 0x55)] := by decide

theorem test_witness_StepRunsTheDecodedOp :
    (driven [.run (some 0x20000004#32) true]).port = [.run (some 0x20000004#32) true] ∧
    decode 0x20000004#32 = .op .cmdOff ∧ decode 0x20000005#32 = .illegal .illegalCmd := by decide

theorem test_witness_IllegalWordOnlyRaisesItsCause :
    decode 0x50000000#32 = .illegal .illegalOp ∧ decode 0x20000006#32 = .illegal .illegalCmd := by decide

theorem test_witness_PortStepsWithoutAnOpWord :
    (driven [.run none true]).port = [.run none true] ∧ (driven [.reset (some 0)]).port = [.reset (some 0)] ∧
    (driven [.run none false]).port = [.run none false] ∧ t0.port = [] := by decide

theorem test_witness_CommandThenHandshakeInOneCycle :
    (driven [.run (some 0x20000000#32) true]).port = [.run (some 0x20000000#32) true] ∧
    decode 0x20000000#32 = .op .cmdEnableTlm ∧ commandOf? .cmdEnableTlm = some .enableTelemetry := by decide

theorem test_witness_StepKeepsConfigurationAndLog : ∃ t, step (driven [.run (some 0x10000055#32) false]) = .next t :=
  ⟨_, rfl⟩

theorem test_witness_NopChangesNothing : (1#32).toNat / 2 ^ 28 = 0 ∧ 1#32 ≠ 0#32 := by decide

theorem test_witness_IdleByteStartsOrIsDropped : t0.decState = .idle := by decide

theorem test_witness_AccumulatingByteIsStoredOrAbandons :
    (collecting frameZ 1).decState = .acc ∧ (collecting frameZ 1).decCur = 1 ∧ (collecting frameZ 70).decCur = 70 := by
  decide

theorem test_witness_BadChecksumDiscards : last.decState = .acc ∧ last.decCur = 71 ∧
    ((last.fb.set 71 0x7D#8).toList.map BitVec.toNat).sum % 256 ≠ 0 := by decide +kernel

theorem test_witness_GoodChecksumAccepts : last.decState = .acc ∧ last.decCur = 71 ∧
    ((last.fb.set 71 0x7C#8).toList.map BitVec.toNat).sum % 256 = 0 := by decide +kernel

theorem test_witness_EvtFramePulsesExactlyOnFrames :
    ∃ t, exec (.byteIn 0x7C) last = .next t ∧ evtFrame last t = true := ⟨_, rfl, by decide +kernel⟩

theorem test_witness_ReceptionAndTransmissionAreSeparate :
    (∃ t, exec (.byteIn 0x55) t0 = .next t) ∧ (∃ t, exec .cmdOff t0 = .next t) ∧ ∃ t, exec .txPop t0 = .next t :=
  ⟨⟨_, rfl⟩, ⟨_, rfl⟩, ⟨_, rfl⟩⟩

theorem test_witness_OnlyBytesAndResetsMoveTheFramer :
    (∃ t, exec (.csrWrite 0x00 0x0005) last = .next t) ∧ (0x0005#16).getLsbD 1 = false := ⟨⟨_, rfl⟩, by decide⟩

theorem test_witness_SeventyTwoBytesAreOneVerdict :
    t0.decState = .idle ∧ frameZ[0] = 0x55#8 ∧ frameZ[1] = 0x2F#8 := by decide

/-- Offsets 2 and 71, the ends of the range; frame Z is a telemetry frame. -/
theorem test_witness_OneChangedByteBreaksTheChecksum :
    (frameZ.toList.map BitVec.toNat).sum % 256 = 0 ∧ (1 : Byte) ≠ frameZ[2] ∧ (0x7D : Byte) ≠ frameZ[71] ∧
    t0.decState = .idle ∧ frameZ[0] = 0x55#8 ∧ frameZ[1] = 0x2F#8 := by decide +kernel

/-- L1-4: the slots [0, 0, 4, 6] sum to 10 and two of them are not 0. -/
theorem test_witness_SwrOutputsNeverWrap :
    let s := setBank .swr (window4 0 0 4 6 0) t0
    let slot := fun i => (s.banks.swr.win.getD i 0#16).toNat
    10 = ((List.range s.banks.swr.n.toNat).map slot).sum ∧
    2 = ((List.range s.banks.swr.n.toNat).filter fun i => slot i ≠ 0).length ∧ csrRead 0x27#8 s = 5#16 := by decide

theorem test_witness_AcceptedFrameLatchesItsWords : last.decState = .acc ∧ last.decCur = 71 ∧
    ((last.fb.set 71 0x7C#8).toList.map BitVec.toNat).sum % 256 = 0 ∧ ∃ t, exec (.byteIn 0x7C) last = .next t :=
  ⟨rfl, rfl, by decide +kernel, _, rfl⟩

theorem test_witness_AcceptedFrameLatchesItsCodes : last.decState = .acc ∧ last.decCur = 71 ∧
    ((last.fb.set 71 0x7C#8).toList.map BitVec.toNat).sum % 256 = 0 ∧ ∃ t, exec (.byteIn 0x7C) last = .next t :=
  ⟨rfl, rfl, by decide +kernel, _, rfl⟩

/-- Two frames that differ in a byte no rule names, and in the low bits of byte 3. -/
theorem test_witness_UnnamedBytesDoNotReachTheRecord :
    let g := (frameA.set 2 1).set 3 0x6F
    frameA ≠ g ∧ frameA[3].toNat / 16 = g[3].toNat / 16 ∧
    ∀ k : Fin 72, k.val ∈ [8, 9, 16, 17, 20, 21, 22, 23, 24, 25, 26, 27, 66, 69] → frameA[k] = g[k] := by decide +kernel

theorem window4_ok (a b c d : Word) (wc : BitVec 4) (h : wc.toNat < 4) : (window4 a b c d wc).Ok 10 where
  slots := rfl
  one_le_n := by
    show 1 ≤ (4#4).toNat
    decide
  n_le := by
    show (4#4).toNat ≤ 10
    decide
  wc_lt := h
  above_zero := by
    intro i hi
    have h4 : [a, b, c, d].length ≤ i := hi
    rw [window4, List.getD_eq_getElem?_getD, List.getElem?_append_right h4, List.getElem?_replicate]
    split <;> rfl

/-- The cursor at both ends of its range. -/
theorem test_witness_PushOverwritesAtTheCursor :
    (bank .swr t0).Ok t0.cfg.nMax ∧
    (bank .dc (setBank .dc (window4 1 2 3 4 3) t0)).Ok (setBank .dc (window4 1 2 3 4 3) t0).cfg.nMax :=
  ⟨Bank.initial_ok cfgT, window4_ok 1 2 3 4 3 (by decide)⟩

theorem test_witness_PeakIsTheLargestSample :
    (window4 5 3 9 1 0).Ok 10 ∧ (window4 5 3 9 1 0).win[2]? = some (window4 5 3 9 1 0).peak :=
  ⟨window4_ok 5 3 9 1 0 (by decide), by decide⟩

theorem test_witness_WindowHoldsTheLastSamples : (window4 5 3 9 1 0).Ok 10 := window4_ok 5 3 9 1 0 (by decide)

theorem test_witness_CommandIsEnqueuedWholeOrDropped : commandOf? .cmdStandby = some .standby ∧
    (t0.cfg.body .standby ++ [ckbyte (t0.cfg.body .standby)]) = [0x55#8, 0x13#8, 0x00#8, 0x98#8] := by decide

theorem test_witness_EmptyFifoTakesEveryCommand : commandOf? .cmdOperate = some .operate ∧ t0.txq = [] := by decide

theorem test_witness_TxPopTakesTheHead : ({ t0 with txq := [0x55#8] } : State).txq = 0x55#8 :: [] := rfl

theorem test_witness_EmptyFifoIgnoresTheTransport : t0.txq = [] := rfl

/-- In order from reset, and a state that a RESET has put out of order. -/
theorem test_witness_FifoOrderIsKept :
    FifoInOrder t0 ∧ (∃ t, exec .cmdOff t0 = .next t) ∧ (∃ t, step (driven [.run none true]) = .next t) ∧
    ((driven [.run none true]).port.head? ≠ some (.reset none)) ∧
    ¬ FifoInOrder { t0 with log := [.txEnq [0x55]] } := ⟨rfl, ⟨_, rfl⟩, ⟨_, rfl⟩, by decide, by unfold FifoInOrder; decide⟩

theorem test_witness_OnlyCommandsUseFreeSpace : commandOf? .txPop = none ∧ ∃ t, exec .txPop t0 = .next t := ⟨rfl, _, rfl⟩

/-- Both ends of every range of the map, and of every range of the unmapped list. -/
theorem test_witness_UnmappedAddressesAreTheListed :
    [0x07, 0x0D, 0x0F, 0x1A, 0x1F, 0x2D, 0x2F, 0x3A, 0x3F, 0x7A, 0x7F, 0xC8, 0xFF].all
      (fun a => !mapped 10 (BitVec.ofNat 8 a)) = true ∧
    [0x00, 0x06, 0x08, 0x0C, 0x10, 0x19, 0x20, 0x2C, 0x30, 0x39, 0x70, 0x79, 0x80, 0xC7].all
      (fun a => mapped 10 (BitVec.ofNat 8 a)) = true := by decide

theorem test_witness_CsrMapIsOneToOne :
    csrAt 10 (csrAddr (.win .swr 9)) = some (.win .swr 9) ∧ csrAt 10 0xC7#8 = some (.fb 71) := by decide

theorem test_witness_CsrReadAnswers : t0.Inv ∧ (bank .drive (setBank .drive (window4 1 2 3 4 0) t0)).n.toNat ≤ 4 ∧
    (9 : Nat) < t0.cfg.nMax ∧ mapped t0.cfg.nMax 0x39#8 = true ∧ mapped t0.cfg.nMax 0x3A#8 = false ∧
    ∃ t u, exec (.csrRead 0x06) t0 = .next t ∧ exec (.csrRead 0x06) t = .next u :=
  ⟨t0_inv, by decide, by decide, by decide, by decide, _, _, rfl, rfl⟩

theorem test_witness_ErrorAndCounterRegisters :
    t0.Inv ∧ 0x02 ≤ (0x02#8).toNat ∧ (0x06#8).toNat ≤ 0x06 := ⟨t0_inv, by decide, by decide⟩

theorem test_witness_RecordRegisters : 0x10 ≤ (0x10#8).toNat ∧ (0x19#8).toNat ≤ 0x19 := by decide

theorem test_witness_FilterAndFrameBufferRegisters : Channel.dc ≠ .swr ∧ (9 : Nat) < t0.cfg.nMax := by decide

theorem test_witness_CsrWriteErrorsWriteNothing : mapped t0.cfg.nMax 0x07#8 = false ∧
    mapped t0.cfg.nMax 0x02#8 = true ∧ writable 0x02#8 = false ∧ mapped t0.cfg.nMax 0xC7#8 = true ∧
    writable 0xC7#8 = false ∧ writable 0x08#8 = true ∧ writable 0x0C#8 = true ∧ mapped t0.cfg.nMax 0x0D#8 = false := by
  decide

/-- FILT_N at both ends of the legal range, and outside it. -/
theorem test_witness_FiltNWriteSetsAndClears :
    (1 ≤ (1#16).toNat ∧ (10#16).toNat ≤ t0.cfg.nMax) ∧ ¬((11#16).toNat ≤ t0.cfg.nMax) ∧ ¬(1 ≤ (0#16).toNat) := by decide

theorem test_witness_ErrorHasNoOtherEffect :
    ∃ t, exec (.csrRead 0xFF) t0 = .next t ∧ Event.err .csrUnmapped ∈ newEvents t0 t := ⟨_, rfl, by decide⟩

theorem test_witness_OneCausePerOp :
    ∃ t, exec (.byteIn 0x7D) last = .next t ∧ Event.badSum ∈ newEvents last t := ⟨_, rfl, by decide +kernel⟩

theorem test_witness_FirstCauseIsKept :
    (raiseErr .txDrop t0).err = true ∧ (∃ t, exec (.csrWrite 0x01 0xFFFB) (raiseErr .txDrop t0) = .next t) ∧
    (0xFFFB#16).getLsbD 2 = false := ⟨rfl, ⟨_, rfl⟩, by decide⟩

theorem test_witness_ErrorStateBlocksNothing :
    (∃ t, exec (.csrRead 0x03) t0 = .next t) ∧
    ∃ t, exec (.csrRead 0x03) { t0 with err := true, errCause := some .txDrop } = .next t := ⟨⟨_, rfl⟩, ⟨_, rfl⟩⟩

theorem test_witness_ResetRestoresEveryElement :
    (driven [.reset (some 0x20000000#32)]).port = [.reset (some 0x20000000#32)] := rfl

theorem test_witness_ResetReadValues : ∃ t, exec .reset last = .next t := ⟨_, rfl⟩

theorem test_witness_StepKeepsTheInvariants :
    last.Inv ∧ ∃ t, step { last with port := [.run (some 0x1000007C#32) false] } = .next t := ⟨last_inv, _, rfl⟩

theorem test_witness_StepKeepsLoggedFramesValid :
    last.Inv ∧ FramerSynced last ∧ FramesValid last ∧ ∃ t, step last = .next t :=
  ⟨last_inv, last_synced.1, last_synced.2, _, rfl⟩

theorem test_witness_ReachableStatesAreSound : ∃ t, Reachable t ∧ t.decCur = 1 :=
  ⟨_, .step (.drive [.run (some 0x10000055#32) false] (.initial cfgT)) rfl, by decide⟩

end Sys2Proof.Tests
end

section
/-! PROOFS. The registers of 10_state.md section 7: what STATUS, CTRL, FILT_N and the reporting registers read, and what a
write to each does. -/

namespace Sys2Proof.Machine

/-! ## Reading and writing one register -/

/-- FILT_N of each channel stands at 0x08 plus the channel's number, for every N_MAX (10_state.md R32). -/
theorem csrAt_filtN (nMax : Nat) (ch : Channel) : csrAt nMax (BitVec.ofNat 8 (0x08 + ch.number)) = some (.filtN ch) := by
  cases ch <;> rfl

theorem csrRead_of_csrAt {a : BitVec 8} {s : State} {r : Csr} (h : csrAt s.cfg.nMax a = some r) :
    csrRead a s = csrValue s r := by
  rw [csrRead, h]

theorem exec_csrWrite_ctrl (d : Word) (s : State) : exec (.csrWrite 0x00#8 d) s = .next (ctrlWrite d s) := rfl

theorem exec_csrWrite_status (d : Word) (s : State) : exec (.csrWrite 0x01#8 d) s = .next (statusWrite d s) := rfl

theorem exec_csrWrite_filtN (ch : Channel) (d : Word) (s : State) :
    exec (.csrWrite (BitVec.ofNat 8 (0x08 + ch.number)) d) s = .next (filtNWrite ch d s) := by
  cases ch <;> rfl

/-- A write to a mapped register that is not writable is CSR_READ_ONLY and nothing else (44_host_ops.md R214). -/
theorem exec_csrWrite_readOnly {a : BitVec 8} {s : State} (d : Word) (hm : mapped s.cfg.nMax a = true)
    (hw : writable a = false) : exec (.csrWrite a d) s = .next { s with
      log := s.log ++ [.err .csrReadOnly]
      err := true
      errCause := if s.err then s.errCause else some .csrReadOnly } := by
  rw [exec_csrWrite, if_pos hm, hw, if_neg Bool.false_ne_true, raiseErr_eq]

/-! ## Registers made of several fields -/

/-- STATUS as a number: its fields are disjoint bits of the word (10_state.md R34). -/
theorem statusWord_toNat (s : State) : (statusWord s).toNat =
    256 * s.decCur.val + 4 * s.err.toNat + 2 * s.recValid.toNat + (if s.decState = .acc then 1 else 0) := by
  have hcur : s.decCur.val % 256 = s.decCur.val := Nat.mod_eq_of_lt (by omega)
  have hstate : s.decState.bit.toNat = if s.decState = .acc then 1 else 0 := by
    cases s.decState <;> rfl
  simp only [statusWord, toNat_append_add, BitVec.toNat_ofNat, BitVec.toNat_ofBool, hstate]
  omega

/-- A register of one field with a flag above it and zeros above both, as a number: the form of REC_STATUS and REC_ERR
(10_state.md R38, R42). -/
theorem toNat_flag_append {k n : Nat} (b : Bool) (v : BitVec n) :
    (0#k ++ BitVec.ofBool b ++ v).toNat = v.toNat + 2 ^ n * b.toNat := by
  simp only [toNat_append_add, BitVec.toNat_ofBool, BitVec.toNat_ofNat, Nat.zero_mod, Nat.zero_mul, Nat.zero_add]
  rw [Nat.add_comm, Nat.mul_comm]

/-- A register of one 4-bit field with zeros above it, as a number: the form of FILT_N, REC_FAN and REC_BAND. -/
theorem nibbleWord_toNat (v : BitVec 4) : (v.setWidth 16).toNat = v.toNat := BitVec.toNat_setWidth_of_le (by decide)

/-! ## STATUS -/

/-- Settles O42: STATUS is read through its number, and its write is the one branch on bit 2. -/
theorem statusRegister : Obligations.StatusRegister := by
  unfold Obligations.StatusRegister
  exact ⟨statusWord_toNat, exec_csrWrite_status, fun c => BitVec.eq_of_toNat_eq (statusWord_toNat (State.initial c))⟩

/-! ## The error, counter and record registers -/

/-- The registers that only report state are mapped in every configuration, and a write to one is CSR_READ_ONLY: ERR_CAUSE,
the counters and TXQ_LEVEL at 0x02 to 0x06, the REC registers at 0x10 to 0x19 (10_state.md R32). -/
theorem exec_csrWrite_report {a : BitVec 8} (d : Word) (s : State)
    (h : (0x02 ≤ a.toNat ∧ a.toNat ≤ 0x06) ∨ (0x10 ≤ a.toNat ∧ a.toNat ≤ 0x19)) :
    exec (.csrWrite a d) s = .next { s with
      log := s.log ++ [.err .csrReadOnly]
      err := true
      errCause := if s.err then s.errCause else some .csrReadOnly } := by
  have hm : mapped s.cfg.nMax a = true := by
    simp only [mapped, Bool.or_eq_true, Bool.and_eq_true, decide_eq_true_eq]
    omega
  have hw : writable a = false := by
    simp only [writable, Bool.or_eq_false_iff, Bool.and_eq_false_iff, decide_eq_false_iff_not]
    omega
  exact exec_csrWrite_readOnly d hm hw

theorem csrRead_counterRegister_initial {a : BitVec 8} (c : Config) (h1 : 0x02 ≤ a.toNat) (h2 : a.toNat ≤ 0x06) :
    csrRead a (State.initial c) = 0#16 := by
  have ha : a = 0x02#8 ∨ a = 0x03#8 ∨ a = 0x04#8 ∨ a = 0x05#8 ∨ a = 0x06#8 := by bv_omega
  rcases ha with rfl | rfl | rfl | rfl | rfl <;> rfl

theorem csrRead_recordRegister_initial {a : BitVec 8} (c : Config) (h1 : 0x10 ≤ a.toNat) (h2 : a.toNat ≤ 0x19) :
    csrRead a (State.initial c) = 0#16 := by
  have ha : a = 0x10#8 ∨ a = 0x14#8 ∨ a = 0x11#8 ∨ a = 0x12#8 ∨ a = 0x13#8 ∨ a = 0x15#8 ∨ a = 0x16#8 ∨ a = 0x17#8 ∨
      a = 0x18#8 ∨ a = 0x19#8 := by bv_omega
  rcases ha with rfl | rfl | rfl | rfl | rfl | rfl | rfl | rfl | rfl | rfl
  · exact BitVec.eq_of_toNat_eq (toNat_flag_append _ _)
  · exact BitVec.eq_of_toNat_eq (toNat_flag_append _ _)
  all_goals rfl

/-- TXQ_LEVEL holds every level of a FIFO within its capacity, which is at most 65535 (10_state.md R36). -/
theorem txqLevel_toNat {s : State} (h : s.txq.length ≤ s.cfg.txqDepth) :
    (csrValue s .txqLevel).toNat = s.txq.length := by
  obtain ⟨-, -, hdepth⟩ := s.cfg.body_ranges .off
  exact Nat.mod_eq_of_lt (by omega)

/-- Settles O43: each register is read from its field, and the five addresses share one read-only write. -/
theorem errorAndCounterRegisters : Obligations.ErrorAndCounterRegisters := by
  unfold Obligations.ErrorAndCounterRegisters
  refine ⟨fun s => ?_, fun s => ⟨rfl, rfl, rfl⟩, fun s hs => txqLevel_toNat hs.txq_le, fun a h1 h2 =>
    ⟨fun d s => exec_csrWrite_report d s (.inl ⟨h1, h2⟩), fun c => csrRead_counterRegister_initial c h1 h2⟩⟩
  rw [csrRead_of_csrAt (r := .errCause) rfl, csrValue]
  cases s.errCause with
  | none => rfl
  | some c => cases c <;> rfl

/-- Settles O44: the two registers with a flag are read through their number, the others are their field. -/
theorem recordRegisters : Obligations.RecordRegisters := by
  unfold Obligations.RecordRegisters
  exact ⟨fun s =>
      ⟨toNat_flag_append _ _, rfl, nibbleWord_toNat _, nibbleWord_toNat _, toNat_flag_append _ _, rfl, rfl, rfl, rfl, rfl⟩,
    fun a h1 h2 =>
      ⟨fun d s => exec_csrWrite_report d s (.inr ⟨h1, h2⟩), fun c => csrRead_recordRegister_initial c h1 h2⟩⟩

/-! ## CTRL -/

/-- FILT_CLR reaches every channel, and the other two actions of CTRL reach none (44_host_ops.md R221). -/
theorem bank_ctrlWrite (ch : Channel) (d : Word) (s : State) :
    bank ch (ctrlWrite d s) = if bitSet d 0 then (bank ch s).clear s.cfg.nMax else bank ch s := by
  rw [← bank_clearAllWins, bank, ctrlWrite_eq]
  dsimp only
  split <;> rfl

/-- Settles O47: the write is the model's own record update, with the windows given channel by channel. -/
theorem ctrlWriteActs : Obligations.CtrlWriteActs := by
  unfold Obligations.CtrlWriteActs
  refine ⟨fun s => rfl, fun d s => ⟨ctrlWrite d s, exec_csrWrite_ctrl d s, fun ch => bank_ctrlWrite ch d s, ?_⟩⟩
  rw [ctrlWrite_eq]
  rfl

/-! ## FILT_N -/

theorem csrRead_filtN_toNat (ch : Channel) (s : State) :
    (csrRead (BitVec.ofNat 8 (0x08 + ch.number)) s).toNat = (bank ch s).n.toNat := by
  rw [csrRead_of_csrAt (csrAt_filtN _ ch)]
  exact nibbleWord_toNat _

/-- N_RESET fits the 4 bits of a length (10_state.md R29). -/
theorem bank_initial_n_toNat (ch : Channel) (c : Config) : (bank ch (State.initial c)).n.toNat = c.nReset := by
  obtain ⟨-, hmax, -, hreset⟩ := c.window_ranges
  have hbank : bank ch (State.initial c) = Bank.initial c := by cases ch <;> rfl
  rw [hbank]
  exact Nat.mod_eq_of_lt (by omega)

/-- A length up to N_MAX is kept whole in its 4 bits (10_state.md R29). -/
theorem length_setWidth_toNat {cfg : Config} {d : Word} (h : d.toNat ≤ cfg.nMax) :
    (d.setWidth 4).toNat = d.toNat := by
  obtain ⟨-, hmax, -, -⟩ := cfg.window_ranges
  rw [BitVec.toNat_setWidth]
  exact Nat.mod_eq_of_lt (by omega)

/-- The first push into a cleared window goes to slot 0 and leaves the cursor at 1 mod N (42_filters.md R160, R166). -/
theorem Bank.push_clear {nMax : Nat} {k : Bank} (v : Word) (h1 : 1 ≤ k.n.toNat) (h2 : k.n.toNat ≤ nMax) :
    ((k.clear nMax).push v).win[0]? = some v ∧ ((k.clear nMax).push v).wc.toNat = 1 % k.n.toNat := by
  constructor
  · have hpos : 0 < nMax := by omega
    simp [hpos]
  · rw [Bank.push_wc_toNat v (Bank.clear_ok h1 h2)]
    rfl

/-- Settles O48: a legal length leaves the channel a cleared window of that length, and every other value is an error. -/
theorem filtNWriteSetsAndClears : Obligations.FiltNWriteSetsAndClears := by
  unfold Obligations.FiltNWriteSetsAndClears
  refine fun ch => ⟨csrRead_filtN_toNat ch, fun c => (csrRead_filtN_toNat ch _).trans (bank_initial_n_toNat ch c),
    fun d s => ⟨filtNWrite ch d s, exec_csrWrite_filtN ch d s, ?_⟩⟩
  rcases filtNWrite_cases ch d s with ⟨h1, h2, ht⟩ | ⟨hd, ht⟩
  · rw [if_pos ⟨h1, h2⟩, ht]
    have hlen := length_setWidth_toNat h2
    have hbank : bank ch (clearWin ch (setLength ch d s)) =
        Bank.clear s.cfg.nMax { bank ch s with n := d.setWidth 4 } := by simp
    have hother : ∀ ch', ch' ≠ ch → bank ch' (clearWin ch (setLength ch d s)) = bank ch' s := fun ch' hne => by
      simp [hne]
    simp only [bank_push, if_true, hbank]
    refine ⟨hlen, rfl, rfl, hother, rfl, fun v => ?_⟩
    rw [← hlen]
    exact Bank.push_clear v (hlen ▸ h1) (hlen ▸ h2)
  · rw [if_neg hd, ht, raiseErr_eq]

end Sys2Proof.Machine
end

section
/-! PROOFS. The decoder by the numbers of the op word (30_encoding.md R82), and the command datagram (R89). -/

namespace Sys2Proof

/-! ## The decoder's tests and operands, by the number of bits 27:0 -/

theorem opField_eq_iff (w : OpWord) (v : BitVec 4) : opField w = v ↔ w.toNat / 2 ^ 28 = v.toNat := by
  rw [field_eq_iff, opField_toNat]

theorem belowOp_eq_zero_iff (w : OpWord) : belowOp w = 0#28 ↔ w.toNat % 2 ^ 28 = 0 := by
  rw [field_eq_iff, belowOp_toNat]
  rfl

theorem aboveByte_eq_zero_iff (w : OpWord) : aboveByte w = 0#20 ↔ w.toNat % 2 ^ 28 < 2 ^ 8 := by
  rw [field_eq_iff, aboveByte_toNat]
  exact Nat.div_eq_zero_iff_lt (by decide)

theorem aboveCmd_eq_zero_iff (w : OpWord) : aboveCmd w = 0#25 ↔ w.toNat % 2 ^ 28 < 2 ^ 3 := by
  rw [field_eq_iff, aboveCmd_toNat]
  exact Nat.div_eq_zero_iff_lt (by decide)

theorem reservedField_eq_zero_iff (w : OpWord) : reservedField w = 0#4 ↔ w.toNat % 2 ^ 28 / 2 ^ 24 = 0 := by
  rw [field_eq_iff, reservedField_toNat]
  rfl

theorem dField_eq_zero_iff (w : OpWord) : dField w = 0#16 ↔ w.toNat % 2 ^ 28 % 2 ^ 16 = 0 := by
  rw [field_eq_iff, dField_toNat, Nat.mod_mod_of_dvd _ (by decide)]
  rfl

theorem bField_eq_ofNat (w : OpWord) : bField w = BitVec.ofNat 8 (w.toNat % 2 ^ 28) := by
  rw [field_eq_iff, bField_toNat, BitVec.toNat_ofNat, Nat.mod_mod_of_dvd _ (by decide)]

theorem dField_eq_ofNat (w : OpWord) : dField w = BitVec.ofNat 16 (w.toNat % 2 ^ 28) := by
  rw [field_eq_iff, dField_toNat, BitVec.toNat_ofNat, Nat.mod_mod_of_dvd _ (by decide)]

theorem aField_eq_ofNat (w : OpWord) : aField w = BitVec.ofNat 8 (w.toNat % 2 ^ 28 / 2 ^ 16) := by
  rw [field_eq_iff, aField_toNat, BitVec.toNat_ofNat]
  omega

/-- With bits 27:3 zero the command id is the number of bits 27:0. -/
theorem cField_toNat_of_lt {w : OpWord} (h : w.toNat % 2 ^ 28 < 2 ^ 3) : (cField w).toNat = w.toNat % 2 ^ 28 := by
  rw [cField_toNat]
  omega

/-- The command row of 30_encoding.md R82. decode tests the reserved bits before the id; the rule gives the ids 0 to 4
first, which only words without a reserved bit can have. -/
theorem cmdRow_eq (w : OpWord) :
    (if aboveCmd w = 0#25 then decodeCmd (cField w) else .illegal .illegalOp) =
      if w.toNat % 2 ^ 28 = 0 then .op .cmdEnableTlm
      else if w.toNat % 2 ^ 28 = 1 then .op .cmdDisableTlm
      else if w.toNat % 2 ^ 28 = 2 then .op .cmdOperate
      else if w.toNat % 2 ^ 28 = 3 then .op .cmdStandby
      else if w.toNat % 2 ^ 28 = 4 then .op .cmdOff
      else if w.toNat % 2 ^ 28 < 2 ^ 3 then .illegal .illegalCmd
      else .illegal .illegalOp := by
  by_cases h : w.toNat % 2 ^ 28 < 2 ^ 3
  · simp only [aboveCmd_eq_zero_iff, decodeCmd, field_eq_iff (cField w), cField_toNat_of_lt h, if_pos h]
    rfl
  · rw [if_neg (mt (aboveCmd_eq_zero_iff w).mp h), if_neg, if_neg, if_neg, if_neg, if_neg, if_neg h] <;> omega

end Sys2Proof

namespace Sys2Proof.Machine

theorem runWord_of_illegal {w : OpWord} {c : Cause} (h : decode w = .illegal c) (s : State) :
    runWord w s = execIllegal c s := by
  rw [runWord, h]

/-- Settles O4: every test of decode is a test of op or low, and every operand is a part of low. -/
theorem decodeFollowsTheWordsNumber : Obligations.DecodeFollowsTheWordsNumber := by
  unfold Obligations.DecodeFollowsTheWordsNumber
  rintro w op low rfl rfl
  refine ⟨fun c s h => runWord_of_illegal h s, ?_⟩
  simp only [decode, cmdRow_eq, opField_eq_iff, belowOp_eq_zero_iff, aboveByte_eq_zero_iff, reservedField_eq_zero_iff,
    dField_eq_zero_iff]
  rw [← bField_eq_ofNat, ← aField_eq_ofNat, ← dField_eq_ofNat]
  rfl

/-! ## The command datagram -/

theorem datagram_getElem?_zero (cfg : Config) (c : Command) : (datagram cfg c)[0]? = some 0x55#8 := by
  obtain ⟨hsync, -, -⟩ := cfg.body_ranges c
  rw [datagram, ← List.head?_eq_getElem?, List.head?_append, hsync]
  rfl

/-- Settles O32: k is ckbyte of the body, whose number and whose sum with the body are known (40_framer.md R118). -/
theorem datagramIsBodyAndChecksum : Obligations.DatagramIsBodyAndChecksum := by
  unfold Obligations.DatagramIsBodyAndChecksum
  exact fun cfg c => ⟨⟨ckbyte (cfg.body c), rfl, ckbyte_toNat _⟩, datagram_getElem?_zero cfg c, List.length_append,
    (ck8_eq_zero_iff _).mp (ck8_append_ckbyte _)⟩

end Sys2Proof.Machine
end

section
/-! PROOFS. What one BYTE_IN does in IDLE, in ACC, and at a last byte with a wrong sum (40_framer.md R111, R112, R115). -/

namespace Sys2Proof.Machine

/-- In ACC, going on to the next offset moves the cursor alone. -/
theorem accumulateAt_of_acc {s : State} (k : Fin 72) (h : s.decState = .acc) :
    accumulateAt k s = { s with decCur := k } := by
  rw [accumulateAt, ← h]

/-- A wrong sum rejects the candidate frame, with the framer back in IDLE (40_framer.md R113, R115). -/
theorem completeFrame_badSum {s : State} (h : ck8 s.fb.toList ≠ 0#8) :
    completeFrame s = rejectFrame (framerToIdle s) := if_neg h

/-- Settles O15: the two rows of IDLE in the framer's table. -/
theorem idleByteStartsOrIsDropped : Obligations.IdleByteStartsOrIsDropped := by
  unfold Obligations.IdleByteStartsOrIsDropped
  intro b s hidle
  rw [exec_byteIn]
  by_cases hb : b = 0x55#8
  · rw [if_pos hb, hb, byteIn_idle_sync hidle]
    rfl
  · rw [if_neg hb, byteIn_idle_drop hidle hb]

/-- Settles O16: the wrong tag is the one row of ACC that leaves it before offset 71; on the other the byte is stored and
the cursor moves on. -/
theorem accumulatingByteIsStoredOrAbandons : Obligations.AccumulatingByteIsStoredOrAbandons := by
  unfold Obligations.AccumulatingByteIsStoredOrAbandons
  rintro b s _ hacc rfl - hlast
  rw [exec_byteIn, byteIn_acc b hacc]
  by_cases htag : s.decCur.val = 1 ∧ b ≠ 0x2F#8
  · obtain ⟨hcur, hb⟩ := htag
    rw [if_pos ⟨hcur, hb⟩, byteInAcc_badTag (Fin.ext hcur) hb, abandonTag_eq]
    rfl
  · have hb : s.decCur.val = 1 → b = 0x2F#8 := not_and_not_right.mp htag
    have hstored : (storeByte s.decCur b s).decState = .acc := hacc
    rw [if_neg htag, byteInAcc_next hb (Nat.lt_succ_of_le hlast), accumulateAt_of_acc _ hstored]
    rfl

/-- Settles O17: the sum of the completed frame is the checksum that completeFrame tests (40_framer.md R118). -/
theorem badChecksumDiscards : Obligations.BadChecksumDiscards := by
  unfold Obligations.BadChecksumDiscards
  intro b s hacc hcur hsum
  have hck : ck8 (storeByte 71 b s).fb.toList ≠ 0#8 := mt (ck8_eq_zero_iff _).mp hsum
  rw [exec_byteIn, byteIn_acc b hacc, byteInAcc_last b hcur, completeFrame_badSum hck, rejectFrame_eq]
  rfl

end Sys2Proof.Machine
end

section
/-! PROOFS. The record that an accepted frame latches (40_framer.md R114; 41_extractor.md R140, R148). -/

namespace Sys2Proof.Machine

/-- A sum of 0 accepts the candidate frame, with the framer back in IDLE (40_framer.md R113, R114). -/
theorem completeFrame_goodSum {s : State} (h : ck8 s.fb.toList = 0#8) :
    completeFrame s = acceptFrame (framerToIdle s) := if_pos h

/-- The byte that completes a valid frame latches the record of that frame, itself included (41_extractor.md R140). -/
theorem byteIn_record_of_goodSum {b : Byte} {s : State} (hacc : s.decState = .acc) (hcur : s.decCur = 71)
    (hsum : ((s.fb.set 71 b).toList.map BitVec.toNat).sum % 256 = 0) :
    (byteIn b s).record = recordOf (s.fb.set 71 b) := by
  have hck : ck8 (storeByte 71 b s).fb.toList = 0#8 := (ck8_eq_zero_iff _).mpr hsum
  rw [byteIn_acc b hacc, byteInAcc_last b hcur, completeFrame_goodSum hck, acceptFrame_eq]
  rfl

/-- Settles O24: the latched record is that of the completed frame, and each of its five words is a little-endian pair. -/
theorem acceptedFrameLatchesItsWords : Obligations.AcceptedFrameLatchesItsWords := by
  unfold Obligations.AcceptedFrameLatchesItsWords
  rintro b s t _ hacc hcur rfl hsum hexec
  obtain rfl : byteIn b s = t := by simpa [exec_byteIn] using hexec
  rw [byteIn_record_of_goodSum hacc hcur hsum]
  exact ⟨leWord_toNat _ _, leWord_toNat _ _, leWord_toNat _ _, leWord_toNat _ _, leWord_toNat _ _⟩

end Sys2Proof.Machine
end

section
/-! PROOFS. One push into a window, slot by slot (42_filters.md R160). -/

namespace Sys2Proof.Machine

/-- The cursor of a window in order names one of its slots, since N is at most N_MAX (10_state.md R51 b, c). -/
theorem Bank.Ok.wc_lt_length {nMax : Nat} {k : Bank} (h : k.Ok nMax) : k.wc.toNat < k.win.length := by
  rw [h.slots]
  exact h.wc_lt.trans_le h.n_le

theorem Bank.push_slot_wc {nMax : Nat} {k : Bank} (v : Word) (h : k.Ok nMax) :
    (k.push v).win[k.wc.toNat]? = some v :=
  List.getElem?_set_self h.wc_lt_length

theorem Bank.push_slot_of_ne_wc {k : Bank} {j : Nat} (v : Word) (hj : j ≠ k.wc.toNat) :
    (k.push v).win[j]? = k.win[j]? :=
  List.getElem?_set_ne hj.symm

/-- Settles O27: the channel's window becomes its own push, and the state changes in its windows alone. -/
theorem pushOverwritesAtTheCursor : Obligations.PushOverwritesAtTheCursor := by
  unfold Obligations.PushOverwritesAtTheCursor
  rintro ch v s _ _ k' rfl hok rfl hk'
  obtain rfl : k' = (bank ch s).push v := by simpa using hk'
  have hother : ∀ ch', ch' ≠ ch → bank ch' (push ch v s) = bank ch' s := fun ch' hne => by simp [hne]
  exact ⟨List.length_set, Bank.push_slot_wc v hok, fun _ => Bank.push_slot_of_ne_wc v, Bank.push_wc_toNat v hok, rfl,
    hother, rfl⟩

end Sys2Proof.Machine
end

section
/-! PROOFS. Encode(c): a command's datagram enters the TX FIFO whole, or not at all (43_command_encoder.md R191). -/

namespace Sys2Proof.Machine

/-- Settles O33: a command's op is Encode of that command, whose refusal records TX_DROP (60_exceptions.md R243). -/
theorem commandIsEnqueuedWholeOrDropped : Obligations.CommandIsEnqueuedWholeOrDropped := by
  unfold Obligations.CommandIsEnqueuedWholeOrDropped
  rintro i c s _ hcmd rfl
  refine ⟨ck8_append_ckbyte _, ?_⟩
  rw [exec_of_command s hcmd, encodeCommand_eq, raiseErr_eq]
  rfl

end Sys2Proof.Machine
end

section
/-! PROOFS. The host ops: NOP, CSR_READ and the execution of an illegal word (44_host_ops.md R210, R212, R216). -/

namespace Sys2Proof

/-- The command row gives no cause but ILLEGAL_CMD, for the ids 5 to 7 (30_encoding.md R82). -/
theorem decodeCmd_illegal {v : BitVec 3} {c : Cause} (h : decodeCmd v = .illegal c) : c = .illegalCmd := by
  unfold decodeCmd at h
  split_ifs at h
  exact (Verdict.illegal.inj h).symm

/-- Outside the command row every illegal word is ILLEGAL_OP (30_encoding.md R82). -/
theorem decode_illegal {w : OpWord} {c : Cause} (h : decode w = .illegal c) : c = .illegalOp ∨ c = .illegalCmd := by
  unfold decode at h
  split_ifs at h
  case pos => exact .inr (decodeCmd_illegal h)
  all_goals exact .inl (Verdict.illegal.inj h).symm

/-- With OP = 0x0, bits 27:0 are the whole word, so NOP's word is 0 alone (30_encoding.md R82). -/
theorem decode_opZero_illegal {w : OpWord} (hop : w.toNat / 2 ^ 28 = 0) (hw : w ≠ 0#32) :
    decode w = .illegal .illegalOp := by
  have hlow : belowOp w ≠ 0#28 := by
    rw [Ne, belowOp_eq_zero_iff]
    bv_omega
  rw [decode, if_pos ((opField_eq_iff w 0x0#4).mpr hop), if_neg hlow]

end Sys2Proof

namespace Sys2Proof.Machine

/-! ## CSR_READ -/

/-- Every window slot stands at 0x30 plus 16 times its channel plus its index (10_state.md R32). -/
theorem csrAt_win {nMax i : Nat} (ch : Channel) (hi : i < nMax) (hmax : nMax ≤ 15) :
    csrAt nMax (BitVec.ofNat 8 (0x30 + 16 * ch.number + i)) = some (.win ch (Fin.ofNat 16 i)) := by
  have hch : Channel.ofNumber? ch.number = some ch := by cases ch <;> rfl
  have hnum : ch.number ≤ 4 := by cases ch <;> decide
  have haddr : (BitVec.ofNat 8 (0x30 + 16 * ch.number + i)).toNat = 0x30 + 16 * ch.number + i :=
    Nat.mod_eq_of_lt (by omega)
  have hslot : (0x30 + 16 * ch.number + i - 0x30) % 16 = i := by omega
  have hrow : (0x30 + 16 * ch.number + i - 0x30) / 16 = ch.number := by omega
  simp only [csrAt, haddr, hslot, hrow, hch, if_pos hi]
  rw [if_neg, if_neg, if_neg, if_neg, if_pos, Option.map_some] <;> omega

/-- A slot at or above N reads 0, since the window in order holds 0 there (10_state.md R51 b). -/
theorem csrRead_win_above {s : State} {ch : Channel} {i : Nat} (hok : (bank ch s).Ok s.cfg.nMax)
    (hn : (bank ch s).n.toNat ≤ i) (hi : i < s.cfg.nMax) :
    csrRead (BitVec.ofNat 8 (0x30 + 16 * ch.number + i)) s = 0#16 := by
  obtain ⟨-, hmax, -, -⟩ := s.cfg.window_ranges
  have hval : (Fin.ofNat 16 i).val = i := Nat.mod_eq_of_lt (by omega)
  rw [csrRead_of_csrAt (csrAt_win ch hi hmax), csrValue, hval]
  exact hok.above_zero i hn

/-- No register shows rdata or the log, so an answered read leaves every register's value (44_host_ops.md R212). -/
theorem csrRead_readAnswer (a a' : BitVec 8) (v : Word) (s : State) :
    csrRead a' (readAnswer a v s) = csrRead a' s := rfl

/-- What CSR_READ leaves in rdata, for a mapped and an unmapped address (44_host_ops.md R212). -/
theorem rdata_of_exec_csrRead {a : BitVec 8} {s t : State} (h : exec (.csrRead a) s = .next t) :
    t.rdata = if mapped s.cfg.nMax a then csrRead a s else 0#16 := by
  rw [exec_csrRead] at h
  cases h
  split
  · rfl
  · exact raiseErr_rdata _ _

/-- A read of a mapped address is its answer alone (44_host_ops.md R212). -/
theorem exec_csrRead_mapped {a : BitVec 8} {s : State} (hm : mapped s.cfg.nMax a = true) :
    exec (.csrRead a) s = .next (readAnswer a (csrRead a s) s) := by
  rw [exec_csrRead, if_pos hm]

/-- Two reads in a row return one value: the first changes nothing that the second reads (44_host_ops.md R212). -/
theorem rdata_of_exec_csrRead_twice {a : BitVec 8} {s t u : State} (ht : exec (.csrRead a) s = .next t)
    (hu : exec (.csrRead a) t = .next u) : u.rdata = t.rdata := by
  obtain ⟨hcfg, -, -⟩ := exec_frame ht
  rw [rdata_of_exec_csrRead hu, rdata_of_exec_csrRead ht, hcfg]
  by_cases hm : mapped s.cfg.nMax a = true
  · obtain rfl : readAnswer a (csrRead a s) s = t := by simpa [exec_csrRead_mapped hm] using ht
    rw [csrRead_readAnswer]
  · rw [if_neg hm, if_neg hm]

/-- Settles O41: the two branches of the op as record updates, and the value of one register at a time. -/
theorem csrReadAnswers : Obligations.CsrReadAnswers := by
  unfold Obligations.CsrReadAnswers
  refine ⟨fun a s => ?_, fun s ch i hs => csrRead_win_above (hs.banks_ok ch), fun a s t u => rdata_of_exec_csrRead_twice,
    BitVec.eq_of_toNat_eq ((csrRead_filtN_toNat .drive _).trans (bank_initial_n_toNat .drive _))⟩
  by_cases hm : mapped s.cfg.nMax a = true
  · rw [exec_csrRead_mapped hm, if_pos hm]
    rfl
  · rw [exec_csrRead, if_neg hm, if_neg hm, raiseErr_eq, readAnswer, emit_log, List.append_assoc]
    rfl

/-! ## Illegal words and NOP -/

/-- Settles O10: the cause is one of decode's two, and ILLEGAL of it is raising it (60_exceptions.md R243). -/
theorem illegalWordOnlyRaisesItsCause : Obligations.IllegalWordOnlyRaisesItsCause := by
  unfold Obligations.IllegalWordOnlyRaisesItsCause
  refine fun s w c hw => ⟨decode_illegal hw, ?_⟩
  rw [runWord_of_illegal hw, execIllegal, raiseErr_eq]

/-- Settles O14: NOP answers its state, and a word with OP = 0x0 that is not 0 has a reserved bit set. -/
theorem nopChangesNothing : Obligations.NopChangesNothing := by
  unfold Obligations.NopChangesNothing
  exact ⟨exec_nop, by decide, fun _ => decode_opZero_illegal⟩

end Sys2Proof.Machine
end

section
/-! PROOFS. The op word and its one encoding, both ways (30_encoding.md R81, R82), and the assembler's words (R90). -/

namespace Sys2Proof

/-! ## Each row of the op table, from the number of the word -/

theorem decode_byteIn_of_toNat {w : OpWord} {b : Byte} (h : w.toNat = 2 ^ 28 + b.toNat) :
    decode w = .op (.byteIn b) := by
  have hop : opField w = 0x1#4 := by
    rw [opField_eq_iff, h]
    simp
    omega
  have habove : aboveByte w = 0#20 := by
    rw [aboveByte_eq_zero_iff]
    omega
  have hb : bField w = b := by
    rw [field_eq_iff, bField_toNat]
    omega
  simp [decode, hop, habove, hb]

theorem decode_cmd_of_toNat {w : OpWord} {c : Command} (h : w.toNat = 2 ^ 29 + c.id.toNat) :
    decode w = decodeCmd c.id := by
  have hid := c.id.isLt
  have hop : opField w = 0x2#4 := by
    rw [opField_eq_iff, h]
    simp
    omega
  have habove : aboveCmd w = 0#25 := by
    rw [aboveCmd_eq_zero_iff]
    omega
  have hc : cField w = c.id := by
    rw [field_eq_iff, cField_toNat]
    omega
  simp [decode, hop, habove, hc]

theorem decode_csrRead_of_toNat {w : OpWord} {a : BitVec 8} (h : w.toNat = 3 * 2 ^ 28 + a.toNat * 2 ^ 16) :
    decode w = .op (.csrRead a) := by
  have hop : opField w = 0x3#4 := by
    rw [opField_eq_iff, h]
    simp
    omega
  have hres : reservedField w = 0#4 := by
    rw [reservedField_eq_zero_iff]
    omega
  have hd : dField w = 0#16 := by
    rw [dField_eq_zero_iff]
    omega
  have ha : aField w = a := by
    rw [field_eq_iff, aField_toNat]
    omega
  simp [decode, hop, hres, hd, ha]

theorem decode_csrWrite_of_toNat {w : OpWord} {a : BitVec 8} {d : Word}
    (h : w.toNat = 4 * 2 ^ 28 + a.toNat * 2 ^ 16 + d.toNat) : decode w = .op (.csrWrite a d) := by
  have hop : opField w = 0x4#4 := by
    rw [opField_eq_iff, h]
    simp
    omega
  have hres : reservedField w = 0#4 := by
    rw [reservedField_eq_zero_iff]
    omega
  have hd : dField w = d := by
    rw [field_eq_iff, dField_toNat]
    omega
  have ha : aField w = a := by
    rw [field_eq_iff, aField_toNat]
    omega
  simp [decode, hop, hres, hd, ha]

/-! ## Each row of the op table, from the fields that decode tests -/

theorem eq_nop_word {w : OpWord} (hop : opField w = 0x0#4) (hlow : belowOp w = 0#28) : w = 0x0#4 ++ 0#28 := by
  rw [opField_eq_iff] at hop
  rw [belowOp_eq_zero_iff] at hlow
  apply BitVec.eq_of_toNat_eq
  simp at hop ⊢
  omega

theorem eq_byteIn_word {w : OpWord} (hop : opField w = 0x1#4) (habove : aboveByte w = 0#20) :
    w = 0x1#4 ++ 0#20 ++ bField w := by
  rw [opField_eq_iff] at hop
  rw [aboveByte_eq_zero_iff] at habove
  rw [field_eq_iff, byteIn_word_toNat, bField_toNat]
  simp at hop
  omega

theorem eq_cmd_word {w : OpWord} {c : Command} (hop : opField w = 0x2#4) (habove : aboveCmd w = 0#25)
    (hc : cField w = c.id) : w = encodeCmdWord c := by
  rw [opField_eq_iff] at hop
  rw [aboveCmd_eq_zero_iff] at habove
  rw [field_eq_iff, cmd_word_toNat, ← hc, cField_toNat_of_lt habove]
  simp at hop
  omega

theorem eq_csrRead_word {w : OpWord} (hop : opField w = 0x3#4) (hres : reservedField w = 0#4) (hd : dField w = 0#16) :
    w = 0x3#4 ++ 0#4 ++ aField w ++ 0#16 := by
  rw [opField_eq_iff] at hop
  rw [reservedField_eq_zero_iff] at hres
  rw [dField_eq_zero_iff] at hd
  rw [field_eq_iff, csrRead_word_toNat, aField_toNat]
  simp at hop
  omega

theorem eq_csrWrite_word {w : OpWord} (hop : opField w = 0x4#4) (hres : reservedField w = 0#4) :
    w = 0x4#4 ++ 0#4 ++ aField w ++ dField w := by
  rw [opField_eq_iff] at hop
  rw [reservedField_eq_zero_iff] at hres
  rw [field_eq_iff, csrWrite_word_toNat, aField_toNat, dField_toNat]
  simp at hop
  omega

end Sys2Proof

namespace Sys2Proof.Machine

/-! ## The five commands -/

/-- The five CMD ops are one row of the encoder too (30_encoding.md R81). -/
theorem encode_of_command {i : Instr} {c : Command} (h : commandOf? i = some c) :
    encode i = some (encodeCmdWord c) ∧ i.wellFormed = true := by
  cases i <;> simp [commandOf?] at h <;> subst h <;> exact ⟨rfl, rfl⟩

theorem decodeCmd_id {i : Instr} {c : Command} (h : commandOf? i = some c) : decodeCmd c.id = .op i := by
  cases i <;> simp [commandOf?] at h <;> subst h <;> rfl

/-- Only the ids 0 to 4 name an op, each its own (30_encoding.md R82). -/
theorem decodeCmd_op {v : BitVec 3} {i : Instr} (h : decodeCmd v = .op i) : ∃ c, v = c.id ∧ commandOf? i = some c := by
  unfold decodeCmd at h
  split_ifs at h with h0 h1 h2 h3 h4 <;> cases h
  · exact ⟨.enableTelemetry, h0, rfl⟩
  · exact ⟨.disableTelemetry, h1, rfl⟩
  · exact ⟨.operate, h2, rfl⟩
  · exact ⟨.standby, h3, rfl⟩
  · exact ⟨.off, h4, rfl⟩

/-! ## Decode and encode agree -/

/-- A command's op is decoded from any word with the command's number. -/
theorem decode_command {i : Instr} {c : Command} {w : OpWord} (hi : commandOf? i = some c)
    (hw : w.toNat = 2 ^ 29 + c.id.toNat) : decode w = .op i := by
  rw [decode_cmd_of_toNat hw, decodeCmd_id hi]

/-- Settles O2: every row of the encoder has the number that the decoder's row tests for. -/
theorem decodeReadsBackEveryEncoding : Obligations.DecodeReadsBackEveryEncoding := by
  unfold Obligations.DecodeReadsBackEveryEncoding
  intro i
  cases hi : commandOf? i with
  | some c =>
    obtain ⟨henc, hwf⟩ := encode_of_command hi
    exact ⟨fun _ => ⟨_, henc, decode_command hi (cmd_word_toNat c)⟩, by simp [hwf]⟩
  | none =>
    cases i <;> simp only [commandOf?, reduceCtorEq] at hi
    case nop => exact ⟨fun _ => ⟨_, rfl, rfl⟩, nofun⟩
    case byteIn b => exact ⟨fun _ => ⟨_, rfl, decode_byteIn_of_toNat (byteIn_word_toNat b)⟩, nofun⟩
    case csrRead a => exact ⟨fun _ => ⟨_, rfl, decode_csrRead_of_toNat (csrRead_word_toNat a)⟩, nofun⟩
    case csrWrite a d => exact ⟨fun _ => ⟨_, rfl, decode_csrWrite_of_toNat (csrWrite_word_toNat a d)⟩, nofun⟩
    case txPop => exact ⟨nofun, fun _ => rfl⟩
    case reset => exact ⟨nofun, fun _ => rfl⟩

/-- Settles O3: in each legal row of decode, OP, the reserved bits and the operand make up the whole word. -/
theorem everyLegalWordIsAnEncoding : Obligations.EveryLegalWordIsAnEncoding := by
  unfold Obligations.EveryLegalWordIsAnEncoding
  intro w i h
  unfold decode at h
  split_ifs at h with hop hlow hop hbyte hop hcmd hop hread hop hwrite
  · cases h
    exact ⟨rfl, congrArg some (eq_nop_word hop hlow).symm⟩
  · cases h
    exact ⟨rfl, congrArg some (eq_byteIn_word hop hbyte).symm⟩
  · obtain ⟨c, hc, hi⟩ := decodeCmd_op h
    obtain ⟨henc, hwf⟩ := encode_of_command hi
    exact ⟨hwf, by rw [henc, eq_cmd_word hop hcmd hc]⟩
  · cases h
    exact ⟨rfl, congrArg some (eq_csrRead_word hop hread.1 hread.2).symm⟩
  · cases h
    exact ⟨rfl, congrArg some (eq_csrWrite_word hop hwrite).symm⟩

/-! ## Words of the spec and of the assembler -/

/-- Settles O5: ten closed words, decoded. -/
theorem specWordsDecode : Obligations.SpecWordsDecode := by
  unfold Obligations.SpecWordsDecode
  decide

theorem byteWord_toNat (b : Byte) : (byteWord b).toNat = 2 ^ 28 + b.toNat := by
  have hb : b.toNat < 2 ^ 28 := by omega
  rw [byteWord, BitVec.toNat_or, BitVec.toNat_setWidth_of_le (by decide)]
  exact (Nat.two_pow_add_eq_or_of_lt hb 1).symm

theorem cmdWord_toNat (c : Command) : (cmdWord c).toNat = 2 ^ 29 + c.id.toNat := by
  cases c <;> rfl

theorem shiftedAddress_toNat (a : BitVec 8) : (a.setWidth 32 <<< 16).toNat = a.toNat * 2 ^ 16 := by
  rw [BitVec.toNat_shiftLeft, BitVec.toNat_setWidth_of_le (by decide), Nat.shiftLeft_eq]
  omega

theorem rdWord_toNat (a : BitVec 8) : (rdWord a).toNat = 3 * 2 ^ 28 + a.toNat * 2 ^ 16 := by
  have ha : a.toNat * 2 ^ 16 < 2 ^ 28 := by omega
  rw [rdWord, BitVec.toNat_or, shiftedAddress_toNat]
  exact (Nat.two_pow_add_eq_or_of_lt ha 3).symm

theorem wrWord_toNat (a : BitVec 8) (d : Word) :
    (wrWord a d).toNat = 4 * 2 ^ 28 + a.toNat * 2 ^ 16 + d.toNat := by
  have ha : a.toNat * 2 ^ 16 < 2 ^ 28 := by omega
  have hd : d.toNat < 2 ^ 16 := d.isLt
  have hhigh : 4 * 2 ^ 28 + a.toNat * 2 ^ 16 = 2 ^ 16 * (2 ^ 14 + a.toNat) := by omega
  rw [wrWord, BitVec.toNat_or, BitVec.toNat_or, shiftedAddress_toNat, BitVec.toNat_setWidth_of_le (by decide), hhigh,
    Nat.two_pow_add_eq_or_of_lt hd, ← hhigh, Nat.mul_comm 4, Nat.two_pow_add_eq_or_of_lt ha 4]
  rfl

/-- Settles O6: each word of the line table has the number of the op's encoding. -/
theorem assemblerWordsDecode : Obligations.AssemblerWordsDecode := by
  unfold Obligations.AssemblerWordsDecode
  exact ⟨fun b => decode_byteIn_of_toNat (byteWord_toNat b), fun i c hi => decode_command hi (cmdWord_toNat c),
    fun a => decode_csrRead_of_toNat (rdWord_toNat a), fun a d => decode_csrWrite_of_toNat (wrWord_toNat a d)⟩

end Sys2Proof.Machine
end

section
/-! PROOFS. What an op and a step can do, case by case, and the events of each (20_memory.md; 60_exceptions.md). -/

namespace Sys2Proof.Machine

/-! ## Every effect an op can have -/

/-- The effects an op i can have on a state s, one constructor per way an op ends (00_scope.md R12). -/
inductive Effect (s : State) : Instr → State → Prop where
  | unchanged {i : Instr} : Effect s i s
  | received (b : Byte) : Effect s (.byteIn b) (byteIn b s)
  | enqueued {i : Instr} {c : Command} (hi : commandOf? i = some c)
      (hfit : (datagram s.cfg c).length ≤ s.cfg.txqDepth - s.txq.length) :
      Effect s i { s with txq := s.txq ++ datagram s.cfg c, log := s.log ++ [.txEnq (datagram s.cfg c)] }
  | popped {b : Byte} {q : List Byte} (hq : s.txq = b :: q) :
      Effect s .txPop { s with txq := q, log := s.log ++ [.txByte b] }
  | answered (a : BitVec 8) : Effect s (.csrRead a) (readAnswer a (csrRead a s) s)
  | unmappedRead (a : BitVec 8) : Effect s (.csrRead a) (raiseErr .csrUnmapped (readAnswer a 0#16 s))
  | raised {i : Instr} (c : Cause) : Effect s i (raiseErr c s)
  | ctrlWritten (d : Word) : Effect s (.csrWrite 0x00#8 d) (ctrlWrite d s)
  | errCleared {d : Word} (hd : d.getLsbD 2 = true) : Effect s (.csrWrite 0x01#8 d) (clearErr s)
  | lengthSet {a : BitVec 8} {d : Word} (ch : Channel) (h1 : 1 ≤ d.toNat) (h2 : d.toNat ≤ s.cfg.nMax) :
      Effect s (.csrWrite a d) (clearWin ch (setLength ch d s))
  | wasReset : Effect s .reset (resetState s)

theorem statusWrite_effect (d : Word) (s : State) : Effect s (.csrWrite 0x01#8 d) (statusWrite d s) := by
  by_cases hd : d.getLsbD 2 = true
  · rw [statusWrite, bitSet, if_pos hd]
    exact .errCleared hd
  · rw [statusWrite, bitSet, if_neg hd]
    exact .unchanged

theorem filtNWrite_effect (a : BitVec 8) (ch : Channel) (d : Word) (s : State) :
    Effect s (.csrWrite a d) (filtNWrite ch d s) := by
  rcases filtNWrite_cases ch d s with ⟨h1, h2, ht⟩ | ⟨-, ht⟩
  · exact ht ▸ .lengthSet ch h1 h2
  · exact ht ▸ .raised _

/-- A write, in the order of its checks: mapped, writable, then the register's own write (44_host_ops.md R214). -/
theorem csrWrite_effect (a : BitVec 8) (d : Word) (s : State) :
    Effect s (.csrWrite a d) (if mapped s.cfg.nMax a then
        if writable a then csrWrite a d s else raiseErr .csrReadOnly s
      else raiseErr .csrUnmapped s) := by
  split_ifs with hm hw
  · rcases csrWrite_cases a d s hw with ⟨rfl, ht⟩ | ⟨rfl, ht⟩ | ⟨ch, -, ht⟩ <;> rw [ht]
    · exact .ctrlWritten d
    · exact statusWrite_effect d s
    · exact filtNWrite_effect a ch d s
  · exact .raised _
  · exact .raised _

theorem popByte_effect (s : State) : Effect s .txPop (popByte s) := by
  cases hq : s.txq with
  | nil =>
    rw [popByte_nil hq]
    exact .unchanged
  | cons b q => exact popByte_cons hq ▸ .popped hq

theorem encodeCommand_effect {i : Instr} {c : Command} (s : State) (hi : commandOf? i = some c) :
    Effect s i (encodeCommand c s) := by
  rw [encodeCommand_eq]
  split_ifs with hfit
  · exact .enqueued hi hfit
  · exact .raised _

/-- Every op ends in one of its effects. -/
theorem exec_effect {i : Instr} {s t : State} (h : exec i s = .next t) : Effect s i t := by
  cases hi : commandOf? i with
  | some c =>
    rw [exec_of_command s hi] at h
    cases h
    exact encodeCommand_effect s hi
  | none =>
    cases i <;> simp only [commandOf?, reduceCtorEq] at hi <;> cases h
    case nop.refl => exact .unchanged
    case byteIn.refl b => exact .received b
    case csrRead.refl a =>
      split
      · exact .answered a
      · exact .unmappedRead a
    case csrWrite.refl a d => exact csrWrite_effect a d s
    case txPop.refl => exact popByte_effect s
    case reset.refl => exact .wasReset

/-- Settles O8: exec has an answer in each of its arms. -/
theorem everyOpCompletes : Obligations.EveryOpCompletes := by
  unfold Obligations.EveryOpCompletes
  intro i s
  cases i <;> exact ⟨_, rfl⟩

/-! ## Steps and ports -/

/-- decode never answers a port step (30_encoding.md R86). -/
theorem decode_ne_reset {w : OpWord} {i : Instr} (h : decode w = .op i) : i ≠ .reset := by
  rintro rfl
  obtain ⟨hwf, -⟩ := everyLegalWordIsAnEncoding w _ h
  cases hwf

/-- Everything a step can do: pass a cycle, an op, or an illegal word, after the port moved on; the op is RESET only in
a cycle with the reset pin asserted (30_encoding.md R86; 70_reset_and_hazards.md R270). -/
theorem step_cases {s t : State} (h : step s = .next t) :
    t = s ∨ (∃ p, t = setPort p s) ∨
    (∃ p i, exec i (setPort p s) = .next t ∧ (i = .reset → ∃ op rest, s.port = .reset op :: rest)) ∨
    ∃ p c, t = raiseErr c (setPort p s) := by
  unfold step portStep at h
  split at h
  case h_1 =>
    cases h
    exact .inl rfl
  case h_2 op rest hp => exact .inr (.inr (.inl ⟨_, _, h, fun _ => ⟨op, rest, hp⟩⟩))
  case h_3 w txReady rest hp =>
    unfold runWord at h
    split at h
    case h_1 i hw => exact .inr (.inr (.inl ⟨_, _, h, fun hi => absurd hi (decode_ne_reset hw)⟩))
    case h_2 c hw =>
      cases h
      exact .inr (.inr (.inr ⟨_, c, rfl⟩))
  case h_4 rest hp => exact .inr (.inr (.inl ⟨_, _, h, nofun⟩))
  case h_5 rest hp =>
    cases h
    exact .inr (.inl ⟨_, rfl⟩)

theorem step_of_word {s : State} {w : OpWord} {txReady : Bool} {rest : List Cycle}
    (hp : s.port = .run (some w) txReady :: rest) : step s = runWord w (setPort (afterOp txReady rest) s) := by
  rw [step, portStep, hp]

theorem step_of_handshake {s : State} {rest : List Cycle} (hp : s.port = .run none true :: rest) :
    step s = exec .txPop (setPort rest s) := by
  rw [step, portStep, hp]

theorem step_of_resetPin {s : State} {op : Option OpWord} {rest : List Cycle} (hp : s.port = .reset op :: rest) :
    step s = exec .reset (setPort rest s) := by
  rw [step, portStep, hp]

/-- Settles O9: the op port's cycle runs the word, and the word runs its verdict. -/
theorem stepRunsTheDecodedOp : Obligations.StepRunsTheDecodedOp := by
  unfold Obligations.StepRunsTheDecodedOp
  rintro s _ w txReady rest hp rfl
  rw [step_of_word hp, runWord]
  constructor
  · intro i hw
    rw [hw]
    rfl
  · intro c hw
    rw [hw]
    rfl

/-- Settles O11: the port's four cases without a word. -/
theorem portStepsWithoutAnOpWord : Obligations.PortStepsWithoutAnOpWord := by
  unfold Obligations.PortStepsWithoutAnOpWord
  refine fun s rest => ⟨step_of_handshake, fun op => step_of_resetPin, fun hp => ?_, fun hp => ?_⟩
  · rw [step, portStep, hp]
    rfl
  · rw [step, portStep, hp]

/-- A command puts its datagram into the FIFO where it fits, and nothing else (43_command_encoder.md R191). -/
theorem encodeCommand_txq (c : Command) (s : State) : (encodeCommand c s).txq =
    if (datagram s.cfg c).length ≤ s.cfg.txqDepth - s.txq.length then s.txq ++ datagram s.cfg c else s.txq := by
  rw [encodeCommand_eq]
  split_ifs
  · rfl
  · exact raiseErr_txq _ _

/-- Settles O12: the command runs with the handshake left as the next cycle, on the FIFO that the cycle found. -/
theorem commandThenHandshakeInOneCycle : Obligations.CommandThenHandshakeInOneCycle := by
  unfold Obligations.CommandThenHandshakeInOneCycle
  intro s w rest i c hp hw hi
  have hstep : step s = .next (encodeCommand c (setPort (afterOp true rest) s)) := by
    rw [step_of_word hp, runWord, hw]
    exact exec_of_command _ hi
  exact ⟨_, hstep, encodeCommand_txq c _, step_of_handshake (encodeCommand_port c _)⟩

/-- Settles O13: idling, an op and an error each keep the configuration and append to the log. -/
theorem stepKeepsConfigurationAndLog : Obligations.StepKeepsConfigurationAndLog := by
  unfold Obligations.StepKeepsConfigurationAndLog
  intro s t h
  obtain rfl | ⟨p, rfl⟩ | ⟨p, i, hi, -⟩ | ⟨p, c, rfl⟩ := step_cases h
  · exact ⟨rfl, [], by simp⟩
  · exact ⟨rfl, [], by simp⟩
  · obtain ⟨hcfg, -, hlog⟩ := exec_frame hi
    exact ⟨hcfg, hlog⟩
  · exact ⟨raiseErr_cfg _ _, _, raiseErr_log _ _⟩

/-! ## Events -/

/-- The only events of a received byte are the framer's, and its FrameOk is that of the frame it completes. -/
theorem mem_newEvents_byteIn {b : Byte} {s : State} {e : Event} (he : e ∈ newEvents s (byteIn b s)) :
    e = .badTag ∨ e = .badSum ∨
    (e = .frameOk (s.fb.set 71 b) ∧ s.decState = .acc ∧ s.decCur = 71 ∧ ck8 (s.fb.set 71 b).toList = 0#8) := by
  obtain ⟨es, hlog, hall, -⟩ := byteIn_log b s
  rw [newEvents_of_log hlog] at he
  exact hall e he

theorem newEvents_reset (s : State) : newEvents s (resetState s) = [] :=
  newEvents_of_log (List.append_nil _).symm

/-- Only BYTE_IN of the last byte of a frame with a sum of 0 logs a FrameOk (40_framer.md R114). -/
theorem frameOk_of_exec {i : Instr} {s t : State} {f : Frame} (h : exec i s = .next t)
    (hf : .frameOk f ∈ newEvents s t) :
    ∃ b, i = .byteIn b ∧ s.decState = .acc ∧ s.decCur = 71 ∧ f = s.fb.set 71 b ∧ ck8 (s.fb.set 71 b).toList = 0#8 := by
  by_cases hb : ∃ b, i = .byteIn b
  · obtain ⟨b, rfl⟩ := hb
    cases h
    obtain he | he | ⟨he, hacc, hcur, hck⟩ := mem_newEvents_byteIn hf
    · cases he
    · cases he
    · exact ⟨b, rfl, hacc, hcur, Event.frameOk.inj he, hck⟩
  · by_cases hr : i = .reset
    · subst hr
      cases h
      simp [newEvents_reset] at hf
    · obtain ⟨he, -⟩ | ⟨c, -, he, -⟩ | ⟨b, -, he, -⟩ | ⟨a, v, -, he, -⟩ | ⟨a, c, -, rfl⟩ | ⟨c, rfl⟩ :=
        exec_events h (not_exists.mp hb) hr
      · simp [he] at hf
      · simp [he] at hf
      · simp [he] at hf
      · simp [he] at hf
      · simp at hf
      · simp at hf

theorem evtFrame_eq_true_iff (s t : State) : evtFrame s t = true ↔ ∃ f, .frameOk f ∈ newEvents s t := by
  rw [evtFrame, List.any_eq_true]
  constructor
  · rintro ⟨e, he, hok⟩
    cases e <;> simp only [Event.isFrameOk, Bool.false_eq_true] at hok
    exact ⟨_, he⟩
  · rintro ⟨f, hf⟩
    exact ⟨_, hf, rfl⟩

/-- The last byte of a frame with a sum of 0 logs its FrameOk and nothing else (40_framer.md R114). -/
theorem newEvents_byteIn_of_goodSum {b : Byte} {s : State} (hacc : s.decState = .acc) (hcur : s.decCur = 71)
    (hck : ck8 (s.fb.set 71 b).toList = 0#8) : newEvents s (byteIn b s) = [.frameOk (s.fb.set 71 b)] := by
  obtain ⟨es, hlog, -, hok⟩ := byteIn_log b s
  rw [newEvents_of_log hlog, hok hacc hcur hck]

/-- Settles O19: evt_frame is a FrameOk among the new events, and that event is the completed frame's. -/
theorem evtFramePulsesExactlyOnFrames : Obligations.EvtFramePulsesExactlyOnFrames := by
  unfold Obligations.EvtFramePulsesExactlyOnFrames
  intro i s t h
  rw [evtFrame_eq_true_iff]
  constructor
  · rintro ⟨f, hf⟩
    obtain ⟨b, hi, hacc, hcur, -, hck⟩ := frameOk_of_exec h hf
    exact ⟨b, hi, hacc, hcur, (ck8_eq_zero_iff _).mp hck⟩
  · rintro ⟨b, rfl, hacc, hcur, hsum⟩
    cases h
    rw [newEvents_byteIn_of_goodSum hacc hcur ((ck8_eq_zero_iff _).mpr hsum)]
    exact ⟨_, List.mem_singleton_self _⟩

end Sys2Proof.Machine
end

section
/-! PROOFS. The TX FIFO: its order, its free space, and the transport's side (20_memory.md section 4;
43_command_encoder.md). -/

namespace Sys2Proof.Machine

/-! ## The queue across a step (20_memory.md R72) -/

/-- From s to t, the bytes queued and then enqueued are the bytes taken and then queued. -/
def FifoConserved (s t : State) : Prop :=
  s.txq ++ (newEvents s t).flatMap Event.enqueued = (newEvents s t).flatMap Event.taken ++ t.txq

/-- Events that move no byte, with the queue as it was, conserve it. -/
theorem FifoConserved.of_noBytes {s t : State} (h : ∀ e ∈ newEvents s t, e.enqueued = [] ∧ e.taken = [])
    (hq : t.txq = s.txq) : FifoConserved s t := by
  have henq : (newEvents s t).flatMap Event.enqueued = [] := List.flatMap_eq_nil_iff.mpr fun e he => (h e he).1
  have htak : (newEvents s t).flatMap Event.taken = [] := List.flatMap_eq_nil_iff.mpr fun e he => (h e he).2
  rw [FifoConserved, henq, htak, hq, List.append_nil, List.nil_append]

theorem fifoConserved_raiseErr (c : Cause) (s : State) : FifoConserved s (raiseErr c s) :=
  .of_noBytes (by simp [Event.enqueued, Event.taken]) (raiseErr_txq s c)

theorem fifoConserved_byteIn (b : Byte) (s : State) : FifoConserved s (byteIn b s) := by
  refine .of_noBytes (fun e he => ?_) (byteIn_frame b s).2.1
  obtain rfl | rfl | ⟨rfl, -⟩ := mem_newEvents_byteIn he <;> exact ⟨rfl, rfl⟩

/-- Every op but RESET conserves the queue. -/
theorem fifoConserved_of_exec {i : Instr} {s t : State} (hr : i ≠ .reset) (h : exec i s = .next t) :
    FifoConserved s t := by
  by_cases hb : ∃ b, i = .byteIn b
  · obtain ⟨b, rfl⟩ := hb
    cases h
    exact fifoConserved_byteIn b s
  · obtain ⟨he, hq⟩ | ⟨c, -, he, hq⟩ | ⟨b, -, he, hq⟩ | ⟨a, v, -, he, hq⟩ | ⟨a, c, -, rfl⟩ | ⟨c, rfl⟩ :=
      exec_events h (not_exists.mp hb) hr
    · exact .of_noBytes (by simp [he]) hq
    · simp [FifoConserved, he, hq, Event.enqueued, Event.taken]
    · simp [FifoConserved, he, hq, Event.enqueued, Event.taken]
    · exact .of_noBytes (by simp [he, Event.enqueued, Event.taken]) hq
    · exact .of_noBytes (by simp [Event.enqueued, Event.taken]) (raiseErr_txq _ _)
    · exact fifoConserved_raiseErr c s

/-- A step outside a reset cycle conserves the queue. -/
theorem fifoConserved_of_step {s t : State} (hp : ∀ op rest, s.port ≠ .reset op :: rest) (h : step s = .next t) :
    FifoConserved s t := by
  obtain rfl | ⟨p, rfl⟩ | ⟨p, i, hi, hreset⟩ | ⟨p, c, rfl⟩ := step_cases h
  · exact .of_noBytes (by simp [newEvents]) rfl
  · exact .of_noBytes (by simp [newEvents]) rfl
  · have hr : i ≠ .reset := fun hir => by
      obtain ⟨op, rest, hport⟩ := hreset hir
      exact hp op rest hport
    have hcons : FifoConserved (setPort p s) t := fifoConserved_of_exec hr hi
    exact hcons
  · exact fifoConserved_raiseErr c (setPort p s)

/-- The new events stand at the log's end, since the log only grows. -/
theorem log_eq_append_newEvents {s t : State} (h : step s = .next t) : t.log = s.log ++ newEvents s t := by
  obtain ⟨-, es, hlog⟩ := stepKeepsConfigurationAndLog s t h
  rw [newEvents_of_log hlog, hlog]

theorem FifoInOrder.of_conserved {s t : State} (hs : FifoInOrder s) (hlog : t.log = s.log ++ newEvents s t)
    (h : FifoConserved s t) : FifoInOrder t := by
  unfold FifoInOrder FifoConserved at *
  rw [hlog, List.flatMap_append, List.flatMap_append, List.append_assoc, ← h, ← List.append_assoc, hs]

/-- Settles O37: an op other than RESET conserves the queue, so the whole log stays in order. -/
theorem fifoOrderIsKept : Obligations.FifoOrderIsKept := by
  unfold Obligations.FifoOrderIsKept
  exact ⟨fun c => rfl, fun i s t => fifoConserved_of_exec, fun s t hp h =>
    ⟨fifoConserved_of_step hp h, fun hs => hs.of_conserved (log_eq_append_newEvents h) (fifoConserved_of_step hp h)⟩⟩

/-! ## Free space (70_reset_and_hazards.md R279) -/

/-- Only a command lengthens the queue. -/
theorem txq_length_le_of_exec {i : Instr} {s t : State} (hi : commandOf? i = none) (h : exec i s = .next t) :
    t.txq.length ≤ s.txq.length := by
  cases exec_effect h with
  | received b => rw [(byteIn_frame b s).2.1]
  | enqueued hc => rw [hi] at hc; cases hc
  | popped hq => simp [hq]
  | raised c => rw [raiseErr_txq]
  | unmappedRead a => rw [raiseErr_txq]; rfl
  | ctrlWritten d => rw [ctrlWrite_eq]
  | wasReset => exact Nat.zero_le _
  | unchanged | answered | errCleared | lengthSet => exact le_rfl

/-- Settles O38: the depth is constant, and no other op lengthens the queue. -/
theorem onlyCommandsUseFreeSpace : Obligations.OnlyCommandsUseFreeSpace := by
  unfold Obligations.OnlyCommandsUseFreeSpace
  intro i s t hi h
  obtain ⟨hcfg, -, -⟩ := exec_frame h
  rw [txFree, txFree, hcfg]
  exact Nat.sub_le_sub_left (txq_length_le_of_exec hi h) _

/-! ## Commands into an empty FIFO, and the transport -/

/-- A command's datagram fits the empty FIFO of every configuration (00_scope.md R8). -/
theorem datagram_length_le (cfg : Config) (c : Command) : (datagram cfg c).length ≤ cfg.txqDepth := by
  obtain ⟨-, hdepth, -⟩ := cfg.body_ranges c
  simpa [datagram] using hdepth

/-- Settles O34: with nothing queued the free space is the whole depth. -/
theorem emptyFifoTakesEveryCommand : Obligations.EmptyFifoTakesEveryCommand := by
  unfold Obligations.EmptyFifoTakesEveryCommand
  intro i c s hi hq
  have hfit : (datagram s.cfg c).length ≤ s.cfg.txqDepth - s.txq.length := by
    rw [hq]
    exact datagram_length_le s.cfg c
  rw [exec_of_command s hi, encodeCommand_eq, if_pos hfit, hq]
  rfl

/-- Settles O35: the head of the queue is both what tx_data shows and what TX_POP takes. -/
theorem txPopTakesTheHead : Obligations.TxPopTakesTheHead := by
  unfold Obligations.TxPopTakesTheHead
  intro s b q hq
  refine ⟨by simp [txValid, hq], by simp [txData, hq], ?_⟩
  rw [exec_txPop, popByte_cons hq]

/-- Settles O36: no byte, no tx_valid and no pop. -/
theorem emptyFifoIgnoresTheTransport : Obligations.EmptyFifoIgnoresTheTransport := by
  unfold Obligations.EmptyFifoIgnoresTheTransport
  intro s hq
  refine ⟨by simp [txValid, hq], ?_⟩
  rw [exec_txPop, popByte_nil hq]

end Sys2Proof.Machine
end

section
/-! PROOFS. What an op leaves alone: reception against transmission (20_memory.md R71), and the framer between two bytes
(40_framer.md R120). -/

namespace Sys2Proof.Machine

/-- A command or a TX_POP can write the FIFO, the log and the error state, nothing else. -/
theorem transmit_frame {i : Instr} {s t : State} (hi : (∃ c, commandOf? i = some c) ∨ i = .txPop)
    (h : exec i s = .next t) :
    ∃ q l e c, t = { s with txq := q, log := l, err := e, errCause := c } := by
  obtain ⟨c, hc⟩ | rfl := hi
  · rw [exec_of_command s hc, encodeCommand_eq, raiseErr_eq] at h
    split_ifs at h <;> cases h <;> exact ⟨_, _, _, _, rfl⟩
  · cases exec_effect h with
    | unchanged | popped => exact ⟨_, _, _, _, rfl⟩
    | raised c => exact ⟨_, _, _, _, raiseErr_eq s c⟩
    | enqueued hc => cases hc

/-- Settles O20: each side's ops write only their own fields and the error state. -/
theorem receptionAndTransmissionAreSeparate : Obligations.ReceptionAndTransmissionAreSeparate := by
  unfold Obligations.ReceptionAndTransmissionAreSeparate
  constructor
  · intro b s t h
    cases h
    obtain ⟨-, htxq, herr, hcause, hrdata, -⟩ := byteIn_frame b s
    exact ⟨htxq, herr, hcause, hrdata⟩
  · intro i s t hi h
    obtain ⟨q, l, e, c, rfl⟩ := transmit_frame hi h
    exact ⟨rfl, rfl, rfl, rfl, rfl, rfl, rfl, rfl, rfl, rfl⟩

/-- An op that is no received byte and no reset keeps the frame buffer, and the framer's state and cursor too unless it
is DEC_RST, which takes them to IDLE (40_framer.md R120, R121). -/
theorem framer_of_exec {i : Instr} {s t : State} (h : exec i s = .next t) (hb : ∀ b, i ≠ .byteIn b) (hr : i ≠ .reset) :
    t.fb = s.fb ∧
    ((t.decState = s.decState ∧ t.decCur = s.decCur) ∨
      (∃ d, i = .csrWrite 0x00#8 d ∧ d.getLsbD 1 = true) ∧ t.decState = .idle ∧ t.decCur = 0) := by
  cases exec_effect h with
  | received b => exact absurd rfl (hb b)
  | wasReset => exact absurd rfl hr
  | raised c => simp
  | unmappedRead a => simp [readAnswer]
  | ctrlWritten d =>
    rw [ctrlWrite_eq]
    by_cases hd : d.getLsbD 1 = true
    · exact ⟨rfl, .inr ⟨⟨d, rfl, hd⟩, if_pos hd, if_pos hd⟩⟩
    · exact ⟨rfl, .inl ⟨if_neg hd, if_neg hd⟩⟩
  | unchanged | enqueued | popped | answered | errCleared | lengthSet => exact ⟨rfl, .inl ⟨rfl, rfl⟩⟩

/-- Settles O21: with DEC_RST excluded, the framer stays. -/
theorem onlyBytesAndResetsMoveTheFramer : Obligations.OnlyBytesAndResetsMoveTheFramer := by
  unfold Obligations.OnlyBytesAndResetsMoveTheFramer
  intro i s t h hb hr hd
  obtain ⟨hfb, ⟨hstate, hcur⟩ | ⟨⟨d, hi, hbit⟩, -⟩⟩ := framer_of_exec h hb hr
  · exact ⟨hstate, hcur, hfb⟩
  · rw [hd d hi] at hbit
    cases hbit

end Sys2Proof.Machine
end

section
/-! PROOFS. The error state: what an error does, what keeps it, and that nothing depends on it (60_exceptions.md). -/

namespace Sys2Proof.Machine

/-- An Err among an op's events is the whole of what the op did, but for the answer of an unmapped read
(60_exceptions.md R244). -/
theorem err_of_exec {i : Instr} {s t : State} {c : Cause} (h : exec i s = .next t) (hc : .err c ∈ newEvents s t) :
    t = raiseErr c s ∨ ∃ a, i = .csrRead a ∧ t = raiseErr c (readAnswer a 0#16 s) := by
  by_cases hb : ∃ b, i = .byteIn b
  · obtain ⟨b, rfl⟩ := hb
    cases h
    obtain he | he | ⟨he, -⟩ := mem_newEvents_byteIn hc <;> cases he
  · by_cases hr : i = .reset
    · subst hr
      cases h
      simp [newEvents_reset] at hc
    · obtain ⟨he, -⟩ | ⟨_, -, he, -⟩ | ⟨_, -, he, -⟩ | ⟨_, _, -, he, -⟩ | ⟨a, c', hi, ht⟩ | ⟨c', ht⟩ :=
        exec_events h (not_exists.mp hb) hr
      · simp [he] at hc
      · simp [he] at hc
      · simp [he] at hc
      · simp [he] at hc
      · rw [ht] at hc
        obtain rfl : c = c' := by simpa using hc
        exact .inr ⟨a, hi, ht⟩
      · rw [ht] at hc
        obtain rfl : c = c' := by simpa using hc
        exact .inl ht

/-- Settles O49: the op either raised the cause alone, or answered an unmapped read with 0 first. -/
theorem errorHasNoOtherEffect : Obligations.ErrorHasNoOtherEffect := by
  unfold Obligations.ErrorHasNoOtherEffect
  intro i s t c h hc
  obtain rfl | ⟨a, rfl, rfl⟩ := err_of_exec h hc
  · exact ⟨[.err c], s.rdata, raiseErr_eq s c, .inl ⟨rfl, rfl⟩⟩
  · refine ⟨[.read a 0#16, .err c], 0#16, ?_, .inr ⟨a, rfl, rfl, rfl⟩⟩
    rw [raiseErr_eq, readAnswer, emit_log, List.append_assoc]
    rfl

/-- Whether an event is one of the framer's three. -/
def Event.isFramer : Event → Bool
  | .frameOk _ | .badSum | .badTag => true
  | .txEnq _ | .txByte _ | .err _ | .read _ _ => false

/-- An op's events hold no Err, or one Err and no framer event (60_exceptions.md R242). -/
theorem newEvents_err_cases {i : Instr} {s t : State} (h : exec i s = .next t) :
    (newEvents s t).countP Event.isErr = 0 ∨
    ((newEvents s t).countP Event.isErr = 1 ∧ ∀ e ∈ newEvents s t, e.isFramer = false) := by
  by_cases hc : ∃ c, .err c ∈ newEvents s t
  · right
    obtain ⟨c, hc⟩ := hc
    obtain rfl | ⟨a, rfl, rfl⟩ := err_of_exec h hc
    · simp [Event.isErr, Event.isFramer]
    · simp [Event.isErr, Event.isFramer]
  · left
    rw [List.countP_eq_zero]
    intro e he
    cases e <;> simp only [Event.isErr, Bool.false_eq_true, not_false_eq_true]
    exact absurd ⟨_, he⟩ hc

/-- Settles O50: one Err at most, and none beside a framer event. -/
theorem oneCausePerOp : Obligations.OneCausePerOp := by
  unfold Obligations.OneCausePerOp
  intro i s t h
  obtain h0 | ⟨h1, hframer⟩ := newEvents_err_cases h
  · exact ⟨by omega, fun _ => h0⟩
  · refine ⟨by omega, fun hf => ?_⟩
    obtain ⟨f, hf⟩ | hf | hf := hf <;> cases hframer _ hf

/-- Settles O51: while err = 1 an error raised keeps the cause, and clearErr is the write excluded. -/
theorem firstCauseIsKept : Obligations.FirstCauseIsKept := by
  unfold Obligations.FirstCauseIsKept
  intro i s t herr h hr hw
  cases exec_effect h with
  | received b =>
    obtain ⟨-, -, he, hcause, -⟩ := byteIn_frame b s
    exact ⟨he.trans herr, hcause⟩
  | raised c => simp [herr]
  | unmappedRead a => simp [readAnswer, herr]
  | ctrlWritten d =>
    rw [ctrlWrite_eq]
    exact ⟨herr, rfl⟩
  | errCleared hd =>
    rw [hw _ rfl] at hd
    cases hd
  | wasReset => exact absurd rfl hr
  | unchanged | enqueued | popped | answered | lengthSet => exact ⟨herr, rfl⟩

end Sys2Proof.Machine
end

section
/-! PROOFS. The address map (10_state.md R32, R48), and what the registers read through it. -/

namespace Sys2Proof.Machine

/-! ## Which addresses have a register -/

theorem ofNumber?_isSome_iff (k : Nat) : (Channel.ofNumber? k).isSome = true ↔ k ≤ 4 := by
  simp [Channel.ofNumber?, Channel.all]
  omega

theorem namedCsr_isSome_iff {x : Nat} (hx : x < 0x30) : (namedCsr x).isSome = true ↔
    x ≤ 0x06 ∨ (0x10 ≤ x ∧ x ≤ 0x19) ∨ (0x20 ≤ x ∧ x ≤ 0x27) := by
  revert x
  decide

theorem mapped_iff (nMax : Nat) (a : BitVec 8) : mapped nMax a = true ↔
    a.toNat ≤ 0x06 ∨ (0x08 ≤ a.toNat ∧ a.toNat ≤ 0x0C) ∨ (0x10 ≤ a.toNat ∧ a.toNat ≤ 0x19) ∨
    (0x20 ≤ a.toNat ∧ a.toNat ≤ 0x2C) ∨
    ((0x30 ≤ a.toNat ∧ a.toNat ≤ 0x7F) ∧ (a.toNat - 0x30) % 16 < nMax) ∨ (0x80 ≤ a.toNat ∧ a.toNat ≤ 0xC7) := by
  simp only [mapped, Bool.or_eq_true, Bool.and_eq_true, decide_eq_true_eq, or_assoc]

/-- A register is found exactly at the mapped addresses, range by range (44_host_ops.md R211). -/
theorem csrAt_isSome_iff (nMax : Nat) (a : BitVec 8) : (csrAt nMax a).isSome = true ↔ mapped nMax a = true := by
  rw [mapped_iff]
  unfold csrAt
  dsimp only
  split_ifs
  · rw [namedCsr_isSome_iff (by omega)]
    omega
  · rw [Option.isSome_map, ofNumber?_isSome_iff]
    omega
  · rw [namedCsr_isSome_iff (by omega)]
    omega
  · rw [Option.isSome_map, ofNumber?_isSome_iff]
    omega
  · rw [Option.isSome_map, ofNumber?_isSome_iff]
    omega
  · exact iff_of_false Bool.false_ne_true (by omega)
  · exact iff_of_true rfl (by omega)
  · exact iff_of_false Bool.false_ne_true (by omega)

/-- Settles O39: found is mapped, and a window address splits into its channel and slot. -/
theorem unmappedAddressesAreTheListed : Obligations.UnmappedAddressesAreTheListed := by
  unfold Obligations.UnmappedAddressesAreTheListed
  intro cfg a
  obtain ⟨-, hmax, -, -⟩ := cfg.window_ranges
  refine ⟨Bool.eq_iff_iff.mpr (csrAt_isSome_iff _ _), ?_⟩
  rw [← Bool.not_eq_true, mapped_iff]
  constructor
  · intro h
    by_cases hwin : 0x30 ≤ a.toNat ∧ a.toNat ≤ 0x7F
    · exact .inr (.inr (.inr (.inr (.inl
        ⟨(a.toNat - 0x30) / 16, (a.toNat - 0x30) % 16, by omega, by omega, by omega, by omega⟩))))
    · omega
  · rintro (h | h | h | h | ⟨ch, i, hch, hi, hlast, ha⟩ | h)
    all_goals omega

/-! ## One register, one address -/

theorem number_le_four (ch : Channel) : ch.number ≤ 4 := by cases ch <;> decide

theorem number_of_ofNumber? {k : Nat} {ch : Channel} (h : Channel.ofNumber? k = some ch) : ch.number = k := by
  have hk : k ≤ 4 := (ofNumber?_isSome_iff k).mp (by rw [h]; rfl)
  interval_cases k <;> cases h <;> rfl

theorem csrAddr_of_namedCsr {x : Nat} {r : Csr} (h : namedCsr x = some r) : csrAddr r = BitVec.ofNat 8 x := by
  unfold namedCsr at h
  split at h <;> cases h <;> rfl

theorem csrAt_filtCur (nMax : Nat) (ch : Channel) :
    csrAt nMax (BitVec.ofNat 8 (0x28 + ch.number)) = some (.filtCur ch) := by
  cases ch <;> rfl

theorem csrAt_fb (nMax : Nat) (i : Fin 72) : csrAt nMax (BitVec.ofNat 8 (0x80 + i.val)) = some (.fb i) := by
  have haddr : (BitVec.ofNat 8 (0x80 + i.val)).toNat = 0x80 + i.val := Nat.mod_eq_of_lt (by omega)
  have hi : Fin.ofNat 72 (0x80 + i.val - 0x80) = i := Fin.ext (by simp)
  simp only [csrAt, haddr, hi]
  rw [if_neg, if_neg, if_neg, if_neg, if_neg, if_pos] <;> omega

/-- Every register, its slot below N_MAX, is found at its own address. -/
theorem csrAt_csrAddr {cfg : Config} (r : Csr) (hr : ∀ ch j, r = .win ch j → j.val < cfg.nMax) :
    csrAt cfg.nMax (csrAddr r) = some r := by
  obtain ⟨-, hmax, -, -⟩ := cfg.window_ranges
  cases r
  case filtN ch => exact csrAt_filtN _ ch
  case filtCur ch => exact csrAt_filtCur _ ch
  case win ch j =>
    have hj : Fin.ofNat 16 j.val = j := Fin.ext (Nat.mod_eq_of_lt j.isLt)
    rw [csrAddr, csrAt_win ch (hr ch j rfl) hmax, hj]
  case fb i => exact csrAt_fb _ i
  all_goals rfl

theorem ofNat_eq_of_toNat_eq {a : BitVec 8} {x : Nat} (h : a.toNat = x) : BitVec.ofNat 8 x = a := by
  rw [← h, BitVec.ofNat_toNat, BitVec.setWidth_eq]

/-- A register is found at no address but its own. -/
theorem csrAddr_of_csrAt {nMax : Nat} {a : BitVec 8} {r : Csr} (h : csrAt nMax a = some r) : csrAddr r = a := by
  unfold csrAt at h
  dsimp only at h
  split_ifs at h
  · rw [csrAddr_of_namedCsr h, ofNat_eq_of_toNat_eq rfl]
  · obtain ⟨ch, hch, rfl⟩ := Option.map_eq_some_iff.mp h
    rw [csrAddr, number_of_ofNumber? hch]
    exact ofNat_eq_of_toNat_eq (by omega)
  · rw [csrAddr_of_namedCsr h, ofNat_eq_of_toNat_eq rfl]
  · obtain ⟨ch, hch, rfl⟩ := Option.map_eq_some_iff.mp h
    rw [csrAddr, number_of_ofNumber? hch]
    exact ofNat_eq_of_toNat_eq (by omega)
  · obtain ⟨ch, hch, rfl⟩ := Option.map_eq_some_iff.mp h
    rw [csrAddr, number_of_ofNumber? hch, Fin.val_ofNat]
    exact ofNat_eq_of_toNat_eq (by omega)
  · obtain rfl := Option.some.inj h
    rw [csrAddr, Fin.val_ofNat]
    exact ofNat_eq_of_toNat_eq (by omega)

/-- Settles O40: csrAt and csrAddr are inverse to each other. -/
theorem csrMapIsOneToOne : Obligations.CsrMapIsOneToOne := by
  unfold Obligations.CsrMapIsOneToOne
  exact fun cfg => ⟨fun r => csrAt_csrAddr r, fun a r => csrAddr_of_csrAt⟩

/-! ## Reads through the map -/

/-- PEAK of the four power channels stands at 0x20 plus the channel's number (10_state.md R43). -/
theorem csrRead_peak {ch : Channel} (s : State) (h : ch ≠ .swr) :
    csrRead (BitVec.ofNat 8 (0x20 + ch.number)) s = (bank ch s).peak := by
  cases ch
  case swr => exact absurd rfl h
  all_goals rfl

theorem csrRead_win {ch : Channel} {i : Nat} {s : State} (hi : i < s.cfg.nMax) :
    csrRead (BitVec.ofNat 8 (0x30 + 16 * ch.number + i)) s = (bank ch s).win.getD i 0#16 := by
  obtain ⟨-, hmax, -, -⟩ := s.cfg.window_ranges
  have hval : (Fin.ofNat 16 i).val = i := Nat.mod_eq_of_lt (by omega)
  rw [csrRead_of_csrAt (csrAt_win ch hi hmax), csrValue, hval]

/-- Settles O45: each address by the register found there. -/
theorem filterAndFrameBufferRegisters : Obligations.FilterAndFrameBufferRegisters := by
  unfold Obligations.FilterAndFrameBufferRegisters
  refine fun s => ⟨fun ch => ⟨csrRead_filtN_toNat ch s, ?_, csrRead_peak s, fun i hi => csrRead_win hi⟩, fun i => ?_⟩
  · rw [csrRead_of_csrAt (csrAt_filtCur _ ch)]
    exact nibbleWord_toNat _
  · rw [csrRead_of_csrAt (csrAt_fb _ i)]
    exact BitVec.toNat_setWidth_of_le (by decide)

theorem writable_iff (a : BitVec 8) :
    writable a = true ↔ a.toNat = 0x00 ∨ a.toNat = 0x01 ∨ (0x08 ≤ a.toNat ∧ a.toNat ≤ 0x0C) := by
  simp only [writable, Bool.or_eq_true, Bool.and_eq_true, decide_eq_true_eq, or_assoc]

/-- Settles O46: the two checks that fail, in their order. -/
theorem csrWriteErrorsWriteNothing : Obligations.CsrWriteErrorsWriteNothing := by
  unfold Obligations.CsrWriteErrorsWriteNothing
  refine fun a d s => ⟨fun hm => ?_, fun hm hw => ?_⟩
  · rw [exec_csrWrite, hm, if_neg Bool.false_ne_true, raiseErr_eq]
  · rw [← writable_iff, Bool.not_eq_true] at hw
    exact exec_csrWrite_readOnly d hm hw

/-! ## Reads after reset -/

theorem bank_initial (ch : Channel) (c : Config) : bank ch (State.initial c) = Bank.initial c := by
  cases ch <;> rfl

theorem Bank.eq_zero_of_mem_initial_window {c : Config} {v : Word} (h : v ∈ (Bank.initial c).window) : v = 0#16 :=
  List.eq_of_mem_replicate (List.mem_of_mem_take h)

theorem Bank.initial_peak (c : Config) : (Bank.initial c).peak = 0#16 := by
  obtain h | h := foldr_maxSample_mem (Bank.initial c).window
  · exact Bank.eq_zero_of_mem_initial_window h
  · exact h

theorem Bank.initial_sampleSum (c : Config) : (Bank.initial c).sampleSum = 0 := by
  rw [Bank.sampleSum, List.sum_eq_zero_iff]
  rintro _ hx
  obtain ⟨v, hv, rfl⟩ := List.mem_map.mp hx
  rw [Bank.eq_zero_of_mem_initial_window hv]
  rfl

theorem Bank.initial_nonzeroCount (c : Config) : (Bank.initial c).nonzeroCount = 0 := by
  rw [Bank.nonzeroCount, List.countP_eq_zero]
  intro v hv
  simp [Bank.eq_zero_of_mem_initial_window hv]

/-- After reset a register other than a FILT_N holds 0. -/
theorem csrValue_initial (c : Config) {r : Csr} (hr : ∀ ch, r ≠ .filtN ch) : csrValue (State.initial c) r = 0#16 := by
  cases r
  case filtN ch => exact absurd rfl (hr ch)
  case status => exact BitVec.eq_of_toNat_eq (statusWord_toNat _)
  case recStatus | recErr => exact BitVec.eq_of_toNat_eq (toNat_flag_append _ _)
  case peakDrive | peakRefl | peakOut | peakDc => exact Bank.initial_peak c
  case swrSumLo | swrSumHi =>
    simp only [csrValue, bank_initial, Bank.sum20, Bank.initial_sampleSum]
    rfl
  case swrCnt =>
    simp only [csrValue, bank_initial, Bank.initial_nonzeroCount]
    rfl
  case swrMean =>
    simp only [csrValue, bank_initial, Bank.nonzeroMean, Bank.initial_nonzeroCount]
    rfl
  case filtCur ch =>
    rw [csrValue, bank_initial]
    rfl
  case win ch i =>
    simp only [csrValue, bank_initial, Bank.initial, List.getD_eq_getElem?_getD, List.getElem?_replicate]
    split <;> rfl
  case fb i => simp [csrValue, State.initial]
  all_goals rfl

/-- The addresses 0x08 to 0x0C are those of FILT_N, channel by channel (10_state.md R32). -/
theorem filtN_address {a : BitVec 8} (h1 : 0x08 ≤ a.toNat) (h2 : a.toNat ≤ 0x0C) :
    ∃ ch : Channel, a = BitVec.ofNat 8 (0x08 + ch.number) := by
  have ha : a = 0x08#8 ∨ a = 0x09#8 ∨ a = 0x0A#8 ∨ a = 0x0B#8 ∨ a = 0x0C#8 := by bv_omega
  obtain rfl | rfl | rfl | rfl | rfl := ha
  exacts [⟨.drive, rfl⟩, ⟨.refl, rfl⟩, ⟨.out, rfl⟩, ⟨.dc, rfl⟩, ⟨.swr, rfl⟩]

theorem csrRead_initial_of_not_filtN (c : Config) {a : BitVec 8} (ha : ¬(0x08 ≤ a.toNat ∧ a.toNat ≤ 0x0C)) :
    csrRead a (State.initial c) = 0#16 := by
  cases hr : csrAt c.nMax a with
  | none =>
    have hread : csrAt (State.initial c).cfg.nMax a = none := hr
    rw [csrRead, hread]
  | some r =>
    rw [csrRead_of_csrAt (s := State.initial c) hr]
    refine csrValue_initial c ?_
    rintro ch rfl
    rw [← csrAddr_of_csrAt hr] at ha
    cases ch <;> exact ha (by decide)

/-- Settles O54: a reset state reads as the initial state of its configuration. -/
theorem resetReadValues : Obligations.ResetReadValues := by
  unfold Obligations.ResetReadValues
  intro s t a h
  cases h
  have hread : csrRead a (resetState s) = csrRead a (State.initial s.cfg) := rfl
  rw [hread]
  split_ifs with ha
  · obtain ⟨ch, rfl⟩ := filtN_address ha.1 ha.2
    exact (csrRead_filtN_toNat ch _).trans (bank_initial_n_toNat ch _)
  · rw [csrRead_initial_of_not_filtN _ ha]
    rfl

end Sys2Proof.Machine
end

section
/-! PROOFS. The error state blocks nothing: every op but a read of it acts as it would with no error recorded
(60_exceptions.md R244). -/

namespace Sys2Proof.Machine

/-! ## Each operation with the error state cleared first -/

/-- An error recorded in either error state is one log entry, once the error state is cleared. -/
theorem clearErr_raiseErr_clearErr (c : Cause) (s : State) :
    clearErr (raiseErr c (clearErr s)) = clearErr (raiseErr c s) := by
  rw [raiseErr_eq, raiseErr_eq]
  rfl

theorem byteIn_clearErr (b : Byte) (s : State) : byteIn b (clearErr s) = clearErr (byteIn b s) := by
  obtain ⟨h, rfl, ht⟩ | ⟨h, hb, ht⟩ | ⟨h, hcur, hb, ht⟩ | ⟨h, hcur, hb, ht⟩ | ⟨h, hcur, hck, ht⟩ | ⟨h, hcur, hck, ht⟩ :=
    byteIn_cases b s <;> rw [ht]
  · exact byteIn_idle_sync (s := clearErr s) h
  · exact byteIn_idle_drop (s := clearErr s) h hb
  · exact (byteIn_acc (s := clearErr s) b h).trans (byteInAcc_badTag (s := clearErr s) hcur hb)
  · exact (byteIn_acc (s := clearErr s) b h).trans (byteInAcc_next (s := clearErr s) hb hcur)
  · exact (byteIn_acc (s := clearErr s) b h).trans
      ((byteInAcc_last (s := clearErr s) b hcur).trans (completeFrame_goodSum hck))
  · exact (byteIn_acc (s := clearErr s) b h).trans
      ((byteInAcc_last (s := clearErr s) b hcur).trans (completeFrame_badSum hck))

theorem clearErr_encodeCommand_clearErr (c : Command) (s : State) :
    clearErr (encodeCommand c (clearErr s)) = clearErr (encodeCommand c s) := by
  rw [encodeCommand_eq, encodeCommand_eq, apply_ite clearErr, apply_ite clearErr]
  exact ite_congr rfl (fun _ => rfl) fun _ => clearErr_raiseErr_clearErr _ s

theorem clearErr_popByte_clearErr (s : State) : clearErr (popByte (clearErr s)) = clearErr (popByte s) := by
  cases hq : s.txq with
  | nil => rw [popByte_nil hq, popByte_nil (s := clearErr s) hq]; rfl
  | cons b q => rw [popByte_cons hq, popByte_cons (s := clearErr s) hq]; rfl

/-- No register but STATUS and ERR_CAUSE shows the error state (10_state.md R34, R35). -/
theorem csrRead_clearErr {a : BitVec 8} (s : State) (h1 : a ≠ 0x01#8) (h2 : a ≠ 0x02#8) :
    csrRead a (clearErr s) = csrRead a s := by
  rw [csrRead, csrRead, clearErr_cfg]
  cases hr : csrAt s.cfg.nMax a with
  | none => rfl
  | some r =>
    cases r
    case status => exact absurd (csrAddr_of_csrAt hr).symm h1
    case errCause => exact absurd (csrAddr_of_csrAt hr).symm h2
    all_goals rfl

theorem clearErr_csrWrite_clearErr (a : BitVec 8) (d : Word) (s : State) :
    clearErr (csrWrite a d (clearErr s)) = clearErr (csrWrite a d s) := by
  unfold csrWrite
  split_ifs
  · rw [ctrlWrite_eq, ctrlWrite_eq]
    rfl
  · unfold statusWrite
    split_ifs <;> rfl
  · split
    · rw [filtNWrite, filtNWrite, apply_ite clearErr, apply_ite clearErr]
      exact ite_congr rfl (fun _ => clearErr_raiseErr_clearErr _ s) fun _ => rfl
    · rfl

/-! ## Any op -/

/-- Clearing the error state before an op, or only after it, gives the same. -/
theorem exec_clearErr {i : Instr} {s t : State} (h1 : i ≠ .csrRead 0x01#8) (h2 : i ≠ .csrRead 0x02#8)
    (h : exec i s = .next t) : ∃ u, exec i (clearErr s) = .next u ∧ clearErr u = clearErr t := by
  cases hi : commandOf? i with
  | some c =>
    rw [exec_of_command s hi] at h
    cases h
    exact ⟨_, exec_of_command _ hi, clearErr_encodeCommand_clearErr c s⟩
  | none =>
    cases i <;> simp only [commandOf?, reduceCtorEq] at hi <;> cases h <;> refine ⟨_, rfl, ?_⟩
    case nop.refl => rfl
    case byteIn.refl b =>
      rw [byteIn_clearErr]
      rfl
    case csrRead.refl a =>
      rw [csrRead_clearErr s (fun ha => h1 (ha ▸ rfl)) (fun ha => h2 (ha ▸ rfl)), clearErr_cfg]
      split_ifs
      · rfl
      · exact clearErr_raiseErr_clearErr _ (readAnswer a 0#16 s)
    case csrWrite.refl a d =>
      rw [clearErr_cfg]
      split_ifs
      · exact clearErr_csrWrite_clearErr a d s
      · exact clearErr_raiseErr_clearErr _ s
      · exact clearErr_raiseErr_clearErr _ s
    case txPop.refl => exact clearErr_popByte_clearErr s
    case reset.refl => rfl

theorem eq_of_clearErr_eq {s t : State} (h : clearErr s = clearErr t) :
    s = { t with err := s.err, errCause := s.errCause } := by
  cases s
  cases t
  simpa [clearErr] using h

/-- Settles O52: both runs are the run from the cleared error state, once their own is cleared. -/
theorem errorStateBlocksNothing : Obligations.ErrorStateBlocksNothing := by
  unfold Obligations.ErrorStateBlocksNothing
  intro i s t t' e q h1 h2 ht ht'
  obtain ⟨u, hu, hut⟩ := exec_clearErr h1 h2 ht
  obtain ⟨u', hu', hut'⟩ := exec_clearErr h1 h2 ht'
  obtain rfl : u = u' := Host.Outcome.next.inj (hu.symm.trans hu')
  exact eq_of_clearErr_eq (hut.symm.trans hut')

end Sys2Proof.Machine
end

section
/-! PROOFS. Reset, and the invariants of 10_state.md R51 along every step (70_reset_and_hazards.md R270). -/

namespace Sys2Proof.Machine

/-! ## The state after reset -/

/-- Settles O53: RESET is the reset state of the configuration, and the pin's step is RESET whatever word it meets. -/
theorem resetRestoresEveryElement : Obligations.ResetRestoresEveryElement := by
  unfold Obligations.ResetRestoresEveryElement
  refine ⟨fun s => rfl, fun s op rest hp => ?_⟩
  rw [step_of_resetPin hp, exec_reset, resetState_eq]
  rfl

theorem inv_initial (c : Config) : (State.initial c).Inv where
  idle_iff := iff_of_true rfl rfl
  banks_ok ch := bank_initial ch c ▸ Bank.initial_ok c
  err_iff := iff_of_true rfl rfl
  txq_le := Nat.zero_le _
  record_zero _ := rfl

/-- Settles O55: every element of the reset state meets its invariant, and a NOP leaves it. -/
theorem resetMeetsTheInvariants : Obligations.ResetMeetsTheInvariants := by
  unfold Obligations.ResetMeetsTheInvariants
  refine ⟨fun c => ⟨inv_initial c, nofun, nofun⟩, inv_initial _, ?_⟩
  have hp : (State.reset.withFetchWord 32 0).port = .run (some 0#32) false :: [] := rfl
  rw [step_of_word hp, runWord, nopChangesNothing.2.1]
  rfl

/-! ## The invariants of the state -/

theorem State.Inv.raiseErr {s : State} (hs : s.Inv) (c : Cause) : (raiseErr c s).Inv where
  idle_iff := by simpa using hs.idle_iff
  banks_ok ch := by
    rw [bank_congr (raiseErr_banks s c), raiseErr_cfg]
    exact hs.banks_ok ch
  err_iff := by
    rw [raiseErr_err, raiseErr_errCause]
    refine iff_of_false nofun fun hnone => ?_
    split_ifs at hnone with herr
    rw [hs.err_iff.mpr hnone] at herr
    cases herr
  txq_le := by simpa using hs.txq_le
  record_zero := by simpa using hs.record_zero

theorem State.Inv.readAnswer {s : State} (hs : s.Inv) (a : BitVec 8) (v : Word) : (readAnswer a v s).Inv := { hs with }

/-- A frame accepted in IDLE pushes each window once (42_filters.md R161). -/
theorem bank_acceptFrame_ok {s : State} (hs : ∀ ch, (bank ch s).Ok s.cfg.nMax) (ch : Channel) :
    (bank ch (acceptFrame s)).Ok s.cfg.nMax := by
  rw [acceptFrame_eq]
  cases ch
  · exact (hs .drive).push _
  · exact (hs .refl).push _
  · exact (hs .out).push _
  · exact (hs .dc).push _
  · exact (hs .swr).push _

theorem State.Inv.acceptFrame {s : State} (hs : s.Inv) : (acceptFrame s).Inv := by
  have hbanks := bank_acceptFrame_ok hs.banks_ok
  rw [acceptFrame_eq] at hbanks ⊢
  exact { hs with banks_ok := hbanks, record_zero := nofun }

/-- A stored byte with the framer back in IDLE, what a completed frame is judged on (40_framer.md R113). -/
theorem State.Inv.completed {s : State} (hs : s.Inv) (i : Fin 72) (b : Byte) :
    (framerToIdle (storeByte i b s)).Inv := { hs with idle_iff := iff_of_true rfl rfl }

theorem State.Inv.byteIn {s : State} (hs : s.Inv) (b : Byte) : (byteIn b s).Inv := by
  obtain ⟨-, -, ht⟩ | ⟨-, -, ht⟩ | ⟨-, -, -, ht⟩ | ⟨-, hcur, -, ht⟩ | ⟨-, -, -, ht⟩ | ⟨-, -, -, ht⟩ :=
    byteIn_cases b s <;> rw [ht]
  · exact { hs with idle_iff := iff_of_false nofun (by rw [accumulateAt_decCur]; decide) }
  · exact hs
  · exact { hs with idle_iff := iff_of_true rfl rfl }
  · refine { hs with idle_iff := iff_of_false nofun fun h0 => ?_ }
    have hval : (s.decCur.val + 1) % 72 = 0 := congrArg Fin.val h0
    omega
  · exact (hs.completed 71 b).acceptFrame
  · exact { hs.completed 71 b with }

theorem State.Inv.ctrlWrite {s : State} (hs : s.Inv) (d : Word) : (ctrlWrite d s).Inv := by
  have hbanks : ∀ ch, (bank ch (Machine.ctrlWrite d s)).Ok s.cfg.nMax := fun ch => by
    rw [bank_ctrlWrite]
    split
    · exact Bank.clear_ok (hs.banks_ok ch).one_le_n (hs.banks_ok ch).n_le
    · exact hs.banks_ok ch
  rw [ctrlWrite_eq] at hbanks ⊢
  refine { hs with banks_ok := hbanks, idle_iff := ?_ }
  by_cases hd : bitSet d 1 = true
  · exact iff_of_true (if_pos hd) (if_pos hd)
  · simpa [hd] using hs.idle_iff

/-- A new length in 1..N_MAX leaves its channel a cleared window and every other window as it was (44_host_ops.md
R222). -/
theorem bank_lengthSet_ok {s : State} (d : Word) (ch : Channel) (hs : ∀ ch, (bank ch s).Ok s.cfg.nMax)
    (h1 : 1 ≤ d.toNat) (h2 : d.toNat ≤ s.cfg.nMax) (ch' : Channel) :
    (bank ch' (clearWin ch (setLength ch d s))).Ok s.cfg.nMax := by
  have hlen := length_setWidth_toNat h2
  rw [bank_clearWin]
  split_ifs with hch
  · refine Bank.clear_ok ?_ ?_ <;> simp [hlen, h1, h2]
  · rw [bank_setLength, if_neg hch]
    exact hs ch'

theorem State.Inv.lengthSet {s : State} {d : Word} (hs : s.Inv) (ch : Channel) (h1 : 1 ≤ d.toNat)
    (h2 : d.toNat ≤ s.cfg.nMax) : (clearWin ch (setLength ch d s)).Inv where
  idle_iff := hs.idle_iff
  banks_ok := bank_lengthSet_ok d ch hs.banks_ok h1 h2
  err_iff := hs.err_iff
  txq_le := hs.txq_le
  record_zero := hs.record_zero

/-- Every op keeps the invariants. -/
theorem State.Inv.exec {i : Instr} {s t : State} (hs : s.Inv) (h : exec i s = .next t) : t.Inv := by
  cases exec_effect h with
  | unchanged => exact hs
  | received b => exact hs.byteIn b
  | enqueued hi hfit =>
    refine { hs with txq_le := ?_ }
    have := hs.txq_le
    simp only [List.length_append]
    omega
  | popped hq =>
    refine { hs with txq_le := ?_ }
    have := hs.txq_le
    simp only [hq, List.length_cons] at this ⊢
    omega
  | answered a => exact hs.readAnswer a _
  | unmappedRead a => exact (hs.readAnswer a _).raiseErr _
  | raised c => exact hs.raiseErr c
  | ctrlWritten d => exact hs.ctrlWrite d
  | errCleared hd => exact { hs with err_iff := iff_of_true rfl rfl }
  | lengthSet ch h1 h2 => exact hs.lengthSet ch h1 h2
  | wasReset => exact { inv_initial s.cfg with }

/-- The cycles to come are no part of the invariants. -/
theorem State.Inv.setPort {s : State} (hs : s.Inv) (p : List Cycle) : (setPort p s).Inv := { hs with }

/-- Settles O56: idling, an op and an error each keep the invariants. -/
theorem stepKeepsTheInvariants : Obligations.StepKeepsTheInvariants := by
  unfold Obligations.StepKeepsTheInvariants
  intro s t hs h
  obtain rfl | ⟨p, rfl⟩ | ⟨p, i, hi, -⟩ | ⟨p, c, rfl⟩ := step_cases h
  · exact hs
  · exact hs.setPort p
  · exact (hs.setPort p).exec hi
  · exact (hs.setPort p).raiseErr c

/-! ## The framer's invariant, and the frames in the log -/

theorem FramerSynced.of_idle {s : State} (h : s.decState = .idle) : FramerSynced s := fun hacc => by
  rw [h] at hacc
  cases hacc

theorem FramerSynced.congr {s t : State} (hs : FramerSynced s) (hstate : t.decState = s.decState)
    (hcur : t.decCur = s.decCur) (hfb : t.fb = s.fb) : FramerSynced t := by
  unfold FramerSynced at *
  rwa [hstate, hcur, hfb]

/-- In ACC a byte that goes on leaves the sync byte, and leaves the tag or is the tag (40_framer.md R112). -/
theorem FramerSynced.accumulate {s : State} {b : Byte} (hs : FramerSynced s) (hacc : s.decState = .acc)
    (hpos : s.decCur ≠ 0) (htag : s.decCur.val = 1 → b = 0x2F#8) (k : Fin 72) :
    FramerSynced (accumulateAt k (storeByte s.decCur b s)) := by
  intro _
  obtain ⟨hsync, htype⟩ := hs hacc
  have h0 : s.decCur.val ≠ 0 := fun h => hpos (Fin.ext h)
  have hfb : (accumulateAt k (storeByte s.decCur b s)).fb = s.fb.set s.decCur.val b := rfl
  rw [hfb, Vector.getElem_set_ne _ _ h0]
  refine ⟨hsync, fun _ => ?_⟩
  rw [Vector.getElem_set]
  split_ifs with h1
  · exact htag h1
  · exact htype (by omega)

theorem FramerSynced.byteIn {s : State} (hs : FramerSynced s) (hinv : s.Inv) (b : Byte) :
    FramerSynced (byteIn b s) := by
  obtain ⟨-, hb, ht⟩ | ⟨-, -, ht⟩ | ⟨-, -, -, ht⟩ | ⟨hacc, -, htag, ht⟩ | ⟨-, -, -, ht⟩ | ⟨-, -, -, ht⟩ :=
    byteIn_cases b s <;> rw [ht]
  · refine fun _ => ⟨?_, fun h2 => absurd h2 (by rw [accumulateAt_decCur]; decide)⟩
    rw [accumulateAt_fb, storeByte_fb, hb]
    exact Vector.getElem_set_self _
  · exact hs
  · exact .of_idle rfl
  · exact hs.accumulate hacc (fun h0 => by rw [hinv.idle_iff.mpr h0] at hacc; cases hacc) htag _
  · exact .of_idle rfl
  · exact .of_idle rfl

theorem FramerSynced.exec {i : Instr} {s t : State} (hs : FramerSynced s) (hinv : s.Inv) (h : exec i s = .next t) :
    FramerSynced t := by
  by_cases hb : ∃ b, i = .byteIn b
  · obtain ⟨b, rfl⟩ := hb
    cases h
    exact hs.byteIn hinv b
  · by_cases hr : i = .reset
    · subst hr
      cases h
      exact .of_idle rfl
    · obtain ⟨hfb, ⟨hstate, hcur⟩ | ⟨-, hidle, -⟩⟩ := framer_of_exec h (not_exists.mp hb) hr
      · exact hs.congr hstate hcur hfb
      · exact .of_idle hidle

/-- A frame that completes an acquisition in sync is a telemetry frame (30_encoding.md R87). -/
theorem FramerSynced.isFrame {s : State} {b : Byte} (hs : FramerSynced s) (hacc : s.decState = .acc)
    (hcur : s.decCur = 71) (hck : ck8 (s.fb.set 71 b).toList = 0#8) : IsFrame (s.fb.set 71 b) := by
  obtain ⟨hsync, htag⟩ := hs hacc
  refine ⟨?_, ?_, (ck8_eq_zero_iff _).mp hck⟩
  · rwa [Vector.getElem_set_ne _ _ (by decide)]
  · rw [Vector.getElem_set_ne _ _ (by decide)]
    exact htag (by rw [hcur]; decide)

theorem FramesValid.append {s t : State} {es : List Event} (hs : FramesValid s) (hlog : t.log = s.log ++ es)
    (hes : ∀ f, .frameOk f ∈ es → IsFrame f) : FramesValid t := by
  intro f hf
  rw [hlog, List.mem_append] at hf
  obtain hf | hf := hf
  · exact hs f hf
  · exact hes f hf

theorem FramesValid.exec {i : Instr} {s t : State} (hs : FramesValid s) (hsync : FramerSynced s)
    (h : exec i s = .next t) : FramesValid t := by
  obtain ⟨-, -, es, hlog⟩ := exec_frame h
  refine hs.append hlog fun f hf => ?_
  rw [← newEvents_of_log hlog] at hf
  obtain ⟨b, -, hacc, hcur, rfl, hck⟩ := frameOk_of_exec h hf
  exact hsync.isFrame hacc hcur hck

/-- Settles O57: only a received byte moves the framer on, and only one that completes a frame in sync logs it. -/
theorem stepKeepsLoggedFramesValid : Obligations.StepKeepsLoggedFramesValid := by
  unfold Obligations.StepKeepsLoggedFramesValid
  intro s t hinv hsync hvalid h
  obtain rfl | ⟨p, rfl⟩ | ⟨p, i, hi, -⟩ | ⟨p, c, rfl⟩ := step_cases h
  · exact ⟨hsync, hvalid⟩
  · exact ⟨hsync, hvalid⟩
  · have hsync' : FramerSynced (setPort p s) := hsync
    have hvalid' : FramesValid (setPort p s) := hvalid
    exact ⟨hsync'.exec (hinv.setPort p) hi, hvalid'.exec hsync' hi⟩
  · exact ⟨hsync.congr (raiseErr_decState _ _) (raiseErr_decCur _ _) (raiseErr_fb _ _),
      hvalid.append (raiseErr_log _ _) (by simp)⟩

/-- Settles O58: the reset state has the three properties, new cycles leave them and every step keeps them. -/
theorem reachableStatesAreSound : Obligations.ReachableStatesAreSound := by
  unfold Obligations.ReachableStatesAreSound
  intro s h
  induction h with
  | initial c => exact resetMeetsTheInvariants.1 c
  | drive p _ ih =>
    obtain ⟨hinv, hsync, hvalid⟩ := ih
    exact ⟨hinv.setPort p, hsync, hvalid⟩
  | step _ hstep ih =>
    obtain ⟨hinv, hsync, hvalid⟩ := ih
    exact ⟨stepKeepsTheInvariants _ _ hinv hstep, stepKeepsLoggedFramesValid _ _ hinv hsync hvalid hstep⟩

end Sys2Proof.Machine
end

section
/-! PROOFS. The accepted frame: what the machine does with it and what its record holds (40_framer.md R114;
41_extractor.md). -/

namespace Sys2Proof.Machine

/-- The byte that completes a valid frame, as the acceptance of that frame (40_framer.md R113, R114). -/
theorem byteIn_of_goodSum {b : Byte} {s : State} (hacc : s.decState = .acc) (hcur : s.decCur = 71)
    (hck : ck8 (s.fb.set 71 b).toList = 0#8) : byteIn b s = acceptFrame (framerToIdle (storeByte 71 b s)) := by
  rw [byteIn_acc b hacc, byteInAcc_last b hcur]
  exact completeFrame_goodSum hck

/-- Settles O18: the state is the acceptance as a record update, and its one event is the FrameOk. -/
theorem goodChecksumAccepts : Obligations.GoodChecksumAccepts := by
  unfold Obligations.GoodChecksumAccepts
  rintro b s _ hacc hcur rfl hsum
  have hck := (ck8_eq_zero_iff _).mpr hsum
  refine ⟨byteIn b s, rfl, ?_, ?_⟩
  · rw [evtFrame, newEvents_byteIn_of_goodSum hacc hcur hck]
    rfl
  · rw [byteIn_of_goodSum hacc hcur hck, acceptFrame_eq]
    rfl

/-! ## The record -/

theorem suppressFlag_iff (b : Byte) : suppressFlag (highNibble b) = true ↔ b.toNat / 16 = 10 := by
  rw [suppressFlag, decide_eq_true_eq, field_eq_iff, highNibble_toNat]
  rfl

theorem errPresentFlag_iff (e : Byte) : errPresentFlag e = true ↔ e.toNat ≠ 255 := by
  rw [errPresentFlag, decide_eq_true_eq, Ne, field_eq_iff]
  rfl

/-- Settles O25: the latched record is that of the completed frame, field by field. -/
theorem acceptedFrameLatchesItsCodes : Obligations.AcceptedFrameLatchesItsCodes := by
  unfold Obligations.AcceptedFrameLatchesItsCodes
  rintro b s t _ hacc hcur rfl hsum h
  cases h
  rw [byteIn_record_of_goodSum hacc hcur hsum]
  exact ⟨leWord_toNat _ _, highNibble_toNat _, suppressFlag_iff _, highNibble_toNat _, lowNibble_toNat _, rfl,
    errPresentFlag_iff _⟩

/-- Settles O26: every field of the record is a function of the bytes that agree. -/
theorem unnamedBytesDoNotReachTheRecord : Obligations.UnnamedBytesDoNotReachTheRecord := by
  unfold Obligations.UnnamedBytesDoNotReachTheRecord
  intro f g hstatus h
  have hbyte : ∀ k (hk : k < 72), k ∈ [8, 9, 16, 17, 20, 21, 22, 23, 24, 25, 26, 27, 66, 69] → f[k] = g[k] :=
    fun k hk => h ⟨k, hk⟩
  have h3 : highNibble f[3] = highNibble g[3] := by
    rw [field_eq_iff, highNibble_toNat, highNibble_toNat, hstatus]
  have hdc := congrArg₂ leWord (hbyte 8 (by decide) (by decide)) (hbyte 9 (by decide) (by decide))
  have htemp := congrArg₂ leWord (hbyte 16 (by decide) (by decide)) (hbyte 17 (by decide) (by decide))
  have hdrive := congrArg₂ leWord (hbyte 20 (by decide) (by decide)) (hbyte 21 (by decide) (by decide))
  have hout := congrArg₂ leWord (hbyte 22 (by decide) (by decide)) (hbyte 23 (by decide) (by decide))
  have hrefl := congrArg₂ leWord (hbyte 24 (by decide) (by decide)) (hbyte 25 (by decide) (by decide))
  have hswr := congrArg₂ leWord (hbyte 26 (by decide) (by decide)) (hbyte 27 (by decide) (by decide))
  have herr := hbyte 66 (by decide) (by decide)
  have hfan := hbyte 69 (by decide) (by decide)
  rw [recordOf, recordOf, h3, hdc, htemp, hdrive, hout, hrefl, hswr, herr, hfan]

end Sys2Proof.Machine
end

section
/-! PROOFS. A whole candidate frame, byte by byte from IDLE, and one changed byte (40_framer.md sections 2 and 3). -/

namespace Sys2Proof.Machine

/-! ## Collecting the bytes of a frame -/

/-- The frame buffer g holds the bytes of f below offset k. -/
def Collected (f g : Frame) (k : Nat) : Prop := ∀ i (hi : i < 72), i < k → g[i] = f[i]

theorem Collected.store {f g : Frame} {k : Nat} (h : Collected f g k) (hk : k < 72) :
    Collected f (g.set k f[k]) (k + 1) := by
  intro i hi hik
  rw [Vector.getElem_set]
  split_ifs with hki
  · subst hki
    rfl
  · exact h i hi (by omega)

theorem Collected.eq {f g : Frame} (h : Collected f g 72) : g = f := Vector.ext fun i hi => h i hi hi

theorem feed_cons (b : Byte) (bs : List Byte) (s : State) : feed (b :: bs) s = feed bs (byteIn b s) := rfl

theorem drop_toList (f : Frame) {k : Nat} (hk : k < 72) : f.toList.drop k = f[k] :: f.toList.drop (k + 1) := by
  have hlen : k < f.toList.length := by simpa using hk
  rw [List.drop_eq_getElem_cons hlen, Vector.getElem_toList]

/-- Completion reads the frame buffer alone of what an acquisition writes (40_framer.md R113). -/
theorem completeFrame_congr {s t : State} (h : framerToIdle s = framerToIdle t) :
    completeFrame s = completeFrame t := by
  simp only [completeFrame, h]

/-- From offset k of an acquisition the rest of the frame completes it, by induction on the bytes to come. -/
theorem feed_rest {f : Frame} (htag : f[1] = 0x2F#8) (n : Nat) : ∀ (s : State), s.decState = .acc →
    s.decCur.val + n = 71 → 1 ≤ s.decCur.val → Collected f s.fb s.decCur.val →
    feed (f.toList.drop s.decCur.val) s = .next (completeFrame { s with fb := f }) := by
  induction n with
  | zero =>
    intro s hacc hcur _ hcol
    have h71 : s.decCur = 71 := Fin.ext hcur
    rw [h71] at hcol ⊢
    have hfb : s.fb.set 71 f[71] = f := (hcol.store (by decide)).eq
    have hnil : f.toList.drop 72 = [] := List.drop_eq_nil_of_le (by simp)
    have hlast : f.toList.drop 71 = [f[71]] := by rw [drop_toList f (by decide), hnil]
    have hstore : storeByte 71 f[71] s = { s with fb := f } := by
      show { s with fb := s.fb.set 71 f[71] } = { s with fb := f }
      rw [hfb]
    show feed (f.toList.drop 71) s = _
    rw [hlast, feed_cons, byteIn_acc _ hacc, byteInAcc_last _ h71, hstore]
    rfl
  | succ n ih =>
    intro s hacc hcur hpos hcol
    have hlt : s.decCur.val < 71 := by omega
    have hnext : (Fin.ofNat 72 (s.decCur.val + 1)).val = s.decCur.val + 1 := Nat.mod_eq_of_lt (by omega)
    have ht : s.decCur.val = 1 → f[s.decCur.val] = 0x2F#8 := fun h1 => by simpa only [h1] using htag
    rw [drop_toList f s.decCur.isLt, feed_cons, byteIn_acc _ hacc, byteInAcc_next ht hlt]
    have hrest := ih (accumulateAt (Fin.ofNat 72 (s.decCur.val + 1)) (storeByte s.decCur f[s.decCur.val] s)) rfl
    rw [accumulateAt_decCur, hnext] at hrest
    rw [hrest (by omega) (by omega) (hcol.store s.decCur.isLt)]
    exact congrArg _ (completeFrame_congr rfl)

/-- From IDLE, the 72 bytes of a candidate frame complete it (40_framer.md R111 to R113). -/
theorem feed_frame {f : Frame} {s : State} (hidle : s.decState = .idle) (hsync : f[0] = 0x55#8) (htag : f[1] = 0x2F#8) :
    feed f.toList s = .next (completeFrame { s with fb := f }) := by
  have hcol : Collected f (s.fb.set 0 f[0]) 1 :=
    Collected.store (fun i _ hi => absurd hi (Nat.not_lt_zero i)) (by decide)
  have hfirst : feed f.toList s = feed (f.toList.drop 1) (byteIn f[0] s) := by
    rw [← feed_cons, ← drop_toList f (by decide), List.drop_zero]
  rw [hsync] at hfirst hcol
  rw [hfirst, byteIn_idle_sync hidle]
  have hrest := feed_rest htag 70 (accumulateAt 1 (storeByte 0 0x55#8 s)) rfl rfl le_rfl hcol
  exact hrest.trans (congrArg _ (completeFrame_congr rfl))

theorem feed_frame_of_goodSum {f : Frame} {s : State} (hidle : s.decState = .idle) (hsync : f[0] = 0x55#8)
    (htag : f[1] = 0x2F#8) (hsum : (f.toList.map BitVec.toNat).sum % 256 = 0) :
    feed f.toList s = .next (acceptFrame (framerToIdle { s with fb := f })) := by
  rw [feed_frame hidle hsync htag, completeFrame_goodSum ((ck8_eq_zero_iff _).mpr hsum)]

theorem feed_frame_of_badSum {f : Frame} {s : State} (hidle : s.decState = .idle) (hsync : f[0] = 0x55#8)
    (htag : f[1] = 0x2F#8) (hsum : (f.toList.map BitVec.toNat).sum % 256 ≠ 0) :
    feed f.toList s = .next (rejectFrame (framerToIdle { s with fb := f })) := by
  rw [feed_frame hidle hsync htag, completeFrame_badSum (mt (ck8_eq_zero_iff _).mp hsum)]

/-- Settles O22: the 72 bytes complete the frame, and the checksum decides. -/
theorem seventyTwoBytesAreOneVerdict : Obligations.SeventyTwoBytesAreOneVerdict := by
  unfold Obligations.SeventyTwoBytesAreOneVerdict
  intro f s hidle hsync htag
  by_cases hsum : (f.toList.map BitVec.toNat).sum % 256 = 0
  · refine ⟨_, feed_frame_of_goodSum hidle hsync htag hsum, rfl, rfl, rfl, ?_⟩
    rw [if_pos hsum]
    exact ⟨rfl, rfl, rfl, rfl, rfl⟩
  · refine ⟨_, feed_frame_of_badSum hidle hsync htag hsum, rfl, rfl, rfl, ?_⟩
    rw [if_neg hsum]
    exact ⟨rfl, rfl, rfl, rfl, rfl, rfl⟩

/-! ## One changed byte -/

theorem sum_set_add (l : List Nat) {k : Nat} (v : Nat) (hk : k < l.length) : (l.set k v).sum + l[k] = l.sum + v := by
  rw [List.sum_set, if_pos hk, ← List.sum_take_add_sum_drop l k, List.drop_eq_getElem_cons hk, List.sum_cons]
  omega

/-- The sum of a frame moves by the byte that is changed. -/
theorem sum_set_frame (f : Frame) (k : Fin 72) (b : Byte) :
    ((f.set k.val b).toList.map BitVec.toNat).sum + f[k].toNat = (f.toList.map BitVec.toNat).sum + b.toNat := by
  have hk : k.val < (f.toList.map BitVec.toNat).length := by simp
  have h := sum_set_add _ b.toNat hk
  simpa [Vector.toList_set, List.map_set] using h

theorem sum_set_frame_ne_zero {f : Frame} {k : Fin 72} {b : Byte} (hsum : (f.toList.map BitVec.toNat).sum % 256 = 0)
    (hb : b ≠ f[k]) : ((f.set k.val b).toList.map BitVec.toNat).sum % 256 ≠ 0 := by
  have h := sum_set_frame f k b
  have hne : b.toNat ≠ f[k].toNat := mt BitVec.eq_of_toNat_eq hb
  omega

/-- Settles O23: the changed sum is not 0, and offsets 0 and 1 still make the bytes a candidate frame. -/
theorem oneChangedByteBreaksTheChecksum : Obligations.OneChangedByteBreaksTheChecksum := by
  unfold Obligations.OneChangedByteBreaksTheChecksum
  intro f k b hsum hb
  have hbad := sum_set_frame_ne_zero hsum hb
  refine ⟨hbad, fun s hidle hsync htag hk => ?_⟩
  have hsync' : (f.set k.val b)[0] = 0x55#8 := by rwa [Vector.getElem_set_ne _ _ (by omega)]
  have htag' : (f.set k.val b)[1] = 0x2F#8 := by rwa [Vector.getElem_set_ne _ _ (by omega)]
  exact ⟨_, feed_frame_of_badSum hidle hsync' htag' hbad, rfl, rfl, rfl, rfl, rfl, rfl, rfl⟩

end Sys2Proof.Machine
end

section
/-! PROOFS. The windows: the peak, the SWR outputs, and which samples a window holds (42_filters.md section 2). -/

namespace Sys2Proof.Machine

/-! ## Peak (42_filters.md R162) -/

theorem Bank.le_peak {k : Bank} {v : Word} (h : v ∈ k.window) : v.toNat ≤ k.peak.toNat := le_foldr_maxSample _ v h

/-- The maximum of a window in order is one of its samples: the fold's start value 0 is a sample too where no sample
exceeds it, since N is at least 1. -/
theorem Bank.Ok.peak_mem {nMax : Nat} {k : Bank} (h : k.Ok nMax) : k.peak ∈ k.window := by
  obtain hmem | hzero := foldr_maxSample_mem k.window
  · exact hmem
  · have hlen : 0 < k.window.length := by
      rw [Bank.window_length h]
      exact h.one_le_n
    have hle := Bank.le_peak (List.getElem_mem hlen)
    have hpeak : k.peak = 0#16 := hzero
    have hfirst : k.window[0] = k.peak := by
      rw [hpeak, BitVec.toNat_ofNat] at hle
      rw [hpeak]
      exact BitVec.eq_of_toNat_eq (Nat.le_zero.mp hle)
    rw [← hfirst]
    exact List.getElem_mem hlen

/-- Settles O28: the slots below N are the window. -/
theorem peakIsTheLargestSample : Obligations.PeakIsTheLargestSample := by
  unfold Obligations.PeakIsTheLargestSample
  exact fun nMax k h => ⟨(k.mem_window_iff _).mp h.peak_mem, fun i v hi hv =>
    Bank.le_peak ((k.mem_window_iff v).mpr ⟨i, hi, hv⟩)⟩

/-! ## The SWR outputs (42_filters.md R163 to R165) -/

/-- The two SWR_SUM registers are the 20 bits of a sum that fits them (00_scope.md R14). -/
theorem swrSum_toNat (s : State) :
    (csrRead 0x24#8 s).toNat + 65536 * (csrRead 0x25#8 s).toNat = (bank .swr s).sampleSum := by
  have hlo : csrRead 0x24#8 s = (bank .swr s).sum20.extractLsb' 0 16 := rfl
  have hhi : csrRead 0x25#8 s = ((bank .swr s).sum20.extractLsb' 16 4).setWidth 16 := rfl
  have hle := (bank .swr s).sampleSum_le
  rw [hlo, hhi, nibbleWord_toNat]
  simp only [Bank.sum20, BitVec.extractLsb'_toNat, BitVec.toNat_ofNat, Nat.shiftRight_eq_div_pow]
  omega

theorem swrCnt_toNat (s : State) : (csrRead 0x26#8 s).toNat = (bank .swr s).nonzeroCount := by
  have hcnt : csrRead 0x26#8 s = (BitVec.ofNat 4 (bank .swr s).nonzeroCount).setWidth 16 := rfl
  have hle := (bank .swr s).nonzeroCount_le
  rw [hcnt, nibbleWord_toNat]
  exact Nat.mod_eq_of_lt (by omega)

theorem swrMean_toNat (s : State) : (csrRead 0x27#8 s).toNat = (bank .swr s).nonzeroMean := by
  have hle := (bank .swr s).nonzeroMean_le
  exact Nat.mod_eq_of_lt (by omega)

/-- Settles O29: each register is its number in full, and the numbers are sums over the slots. -/
theorem swrOutputsNeverWrap : Obligations.SwrOutputsNeverWrap := by
  unfold Obligations.SwrOutputsNeverWrap
  rintro s slot _ _ _ hslot rfl rfl rfl
  obtain rfl : slot = fun i => (s.banks.swr.win.getD i 0#16).toNat := funext hslot
  have hsum := (bank .swr s).sampleSum_eq_slots
  have hcnt := (bank .swr s).nonzeroCount_eq_slots
  refine ⟨(swrSum_toNat s).trans hsum, (swrCnt_toNat s).trans hcnt, ?_⟩
  rw [swrMean_toNat, Bank.nonzeroMean, hsum, hcnt]
  rfl

/-- Settles O30: a mean of samples that are not 0 is at least 1. -/
theorem meanZeroExactlyWhenNoReading : Obligations.MeanZeroExactlyWhenNoReading := by
  unfold Obligations.MeanZeroExactlyWhenNoReading
  intro s
  rw [field_eq_iff, field_eq_iff, swrMean_toNat, swrCnt_toNat]
  constructor
  · intro hmean
    by_contra hcnt
    have hpos := Bank.one_le_nonzeroMean hcnt
    rw [hmean] at hpos
    exact absurd hpos (by decide)
  · intro hcnt
    exact if_pos hcnt

/-! ## The samples a window holds (42_filters.md R160, R166) -/

/-- The number of the latest of len samples whose number is i mod n. -/
def latest (n len i : Nat) : Nat := i + n * ((len - 1 - i) / n)

theorem latest_lt {n len i : Nat} (h : i < len) : latest n len i < len := by
  have := Nat.mul_div_le (len - 1 - i) n
  unfold latest
  omega

/-- The sample numbered len goes to slot len mod n, where it is the latest. -/
theorem latest_succ_cursor (n len : Nat) : latest n (len + 1) (len % n) = len := by
  have hdiv : (len - len % n) / n = len / n := by
    obtain rfl | hn := Nat.eq_zero_or_pos n
    · simp
    · rw [Nat.sub_eq_of_eq_add (Nat.div_add_mod len n).symm, Nat.mul_div_cancel_left _ hn]
  rw [latest, Nat.add_sub_cancel, hdiv, Nat.mod_add_div]

/-- Every other slot keeps its latest sample. -/
theorem latest_succ_of_ne {n len i : Nat} (hi : i < n) (hlen : i < len) (hne : i ≠ len % n) :
    latest n (len + 1) i = latest n len i := by
  have hdvd : ¬ n ∣ len - i := fun h => by
    have hmod : i % n = len % n := (Nat.modEq_iff_dvd' hlen.le).mpr h
    rw [Nat.mod_eq_of_lt hi] at hmod
    exact hne hmod
  have hsucc : len - i = (len - 1 - i) + 1 := by omega
  rw [latest, latest, Nat.add_sub_cancel, hsucc, Nat.succ_div, if_neg (hsucc ▸ hdvd), Nat.add_zero]

/-- Window k holds the samples vs, pushed in this order after a clear. -/
structure Bank.Holds (k : Bank) (vs : List Word) : Prop where
  wc : k.wc.toNat = vs.length % k.n.toNat
  slot : ∀ i, i < k.n.toNat →
    k.win[i]? = if i < vs.length then vs[latest k.n.toNat vs.length i]? else some 0#16

theorem Bank.Holds.clear {nMax : Nat} {k : Bank} (h : k.Ok nMax) : (k.clear nMax).Holds [] where
  wc := by simp
  slot i hi := by
    have hlt : i < nMax := hi.trans_le h.n_le
    simp [hlt]

/-- One more sample overwrites the cursor's slot and no other. -/
theorem Bank.Holds.push {nMax : Nat} {k : Bank} {vs : List Word} (h : k.Holds vs) (hok : k.Ok nMax) (v : Word) :
    (k.push v).Holds (vs ++ [v]) where
  wc := by
    rw [Bank.push_wc_toNat v hok, h.wc, Bank.push_n, List.length_append, List.length_singleton, Nat.mod_add_mod]
  slot i hi := by
    rw [Bank.push_n] at hi
    rw [Bank.push_n, List.length_append, List.length_singleton]
    by_cases hcur : i = k.wc.toNat
    · have hmod : i = vs.length % k.n.toNat := hcur.trans h.wc
      have hle : i < vs.length + 1 := hmod ▸ Nat.lt_succ_of_le (Nat.mod_le _ _)
      rw [hcur, Bank.push_slot_wc v hok, ← hcur, if_pos hle, hmod, latest_succ_cursor, List.getElem?_concat_length]
    · have hmod : i ≠ vs.length % k.n.toNat := fun h' => hcur (h'.trans h.wc.symm)
      rw [Bank.push_slot_of_ne_wc v hcur, h.slot i hi]
      by_cases hlen : i < vs.length
      · rw [if_pos hlen, if_pos (Nat.lt_succ_of_lt hlen), latest_succ_of_ne hi hlen hmod,
          List.getElem?_append_left (latest_lt hlen)]
      · have hne : i ≠ vs.length := fun h' => hmod (by rw [← h', Nat.mod_eq_of_lt hi])
        rw [if_neg hlen, if_neg (by omega)]

/-- Pushing a list of samples, the window stays in order, keeps its length N and holds the list. -/
theorem Bank.foldl_push {nMax : Nat} {k : Bank} (hok : k.Ok nMax) (vs : List Word) :
    (vs.foldl (fun q v => q.push v) (k.clear nMax)).Ok nMax ∧
    (vs.foldl (fun q v => q.push v) (k.clear nMax)).n = k.n ∧
    (vs.foldl (fun q v => q.push v) (k.clear nMax)).Holds vs := by
  induction vs using List.reverseRecOn with
  | nil => exact ⟨Bank.clear_ok hok.one_le_n hok.n_le, rfl, .clear hok⟩
  | append_singleton vs v ih =>
    obtain ⟨hok', hn, hholds⟩ := ih
    rw [List.foldl_append]
    exact ⟨hok'.push v, hn, hholds.push hok' v⟩

/-- Settles O31: by induction on the samples, the last one in the cursor's slot. -/
theorem windowHoldsTheLastSamples : Obligations.WindowHoldsTheLastSamples := by
  unfold Obligations.WindowHoldsTheLastSamples
  intro nMax k vs hok
  obtain ⟨-, hn, hwc, hslot⟩ := Bank.foldl_push hok vs
  rw [hn] at hwc hslot
  exact ⟨hwc, hslot⟩

end Sys2Proof.Machine
end

section
/-! PROOFS. The constraints on the parameters (00_scope.md R8). -/

namespace Sys2Proof

theorem Command.mem_all (c : Command) : c ∈ Command.all := by cases c <;> decide

theorem foldr_max_le_iff (l : List Nat) (m : Nat) : l.foldr max 0 ≤ m ↔ ∀ x ∈ l, x ≤ m := by
  induction l with
  | nil => simp
  | cons x l ih => simp [ih]

/-- L_MAX fits exactly when every command's datagram does. -/
theorem Params.lMax_le_iff (p : Params) (m : Nat) : p.lMax ≤ m ↔ ∀ c, (p.cmdBody.body c).length + 1 ≤ m := by
  cases m with
  | zero => exact iff_of_false (Nat.not_succ_le_zero _) fun h => Nat.not_succ_le_zero _ (h .off)
  | succ m => simp [Params.lMax, foldr_max_le_iff, Command.mem_all]

theorem Params.bodiesOk_iff (p : Params) : p.bodiesOk = true ↔ ∀ c, (p.cmdBody.body c).head? = some 0x55#8 := by
  simp [Params.bodiesOk, Command.mem_all]

theorem Params.wf_iff (p : Params) : p.wf = true ↔
    (1 ≤ p.nMax ∧ p.nMax ≤ 15) ∧ (1 ≤ p.nReset ∧ p.nReset ≤ p.nMax) ∧
    (∀ c, (p.cmdBody.body c).head? = some 0x55#8 ∧ (p.cmdBody.body c).length + 1 ≤ p.txqDepth) ∧
    p.txqDepth ≤ 65535 := by
  simp only [Params.wf, Params.nMaxOk, Params.nResetOk, Params.txqDepthOk, Bool.and_eq_true, decide_eq_true_eq,
    Params.bodiesOk_iff, Params.lMax_le_iff, forall_and, and_assoc]

theorem Config.ofParams?_isSome_iff (p : Params) : (Config.ofParams? p).isSome = true ↔ p.wf = true := by
  unfold Config.ofParams?
  split_ifs with h <;> simp [h]

/-- The depth that stands for TXQ_DEPTH always admits L_MAX and 65535 (log entry 3). -/
theorem Config.hardwareDepth_ranges {l : Nat} (h : l ≤ 65535) :
    l ≤ Config.hardwareDepth l ∧ Config.hardwareDepth l ≤ 65535 ∧ (l ≤ 64 → Config.hardwareDepth l = 64) := by
  unfold Config.hardwareDepth
  split_ifs <;> omega

end Sys2Proof

namespace Sys2Proof.Machine

/-- Settles O1: a configuration is its parameters with their constraints, and this hardware's are written out. -/
theorem onlyWellFormedParametersConfigure : Obligations.OnlyWellFormedParametersConfigure := by
  unfold Obligations.OnlyWellFormedParametersConfigure
  exact ⟨fun p => (Config.ofParams?_isSome_iff p).trans p.wf_iff, rfl, rfl, rfl, fun _ => Config.hardwareDepth_ranges⟩

end Sys2Proof.Machine
end

section
/-! PROOFS. The bytes of the TFRAME pseudo-ops (30_encoding.md R91). -/

namespace Sys2Proof.Machine

/-! ## Named bytes written one after another -/

/-- A list with named bytes written into it, the later over the earlier. -/
def setFields (fields : List (Nat × Byte)) (l : List Byte) : List Byte := fields.foldl (fun f p => f.set p.1 p.2) l

theorem setFields_cons (p : Nat × Byte) (fields : List (Nat × Byte)) (l : List Byte) :
    setFields (p :: fields) l = setFields fields (l.set p.1 p.2) := rfl

@[simp] theorem setFields_length (fields : List (Nat × Byte)) (l : List Byte) :
    (setFields fields l).length = l.length := by
  induction fields generalizing l with
  | nil => rfl
  | cons p fields ih => rw [setFields_cons, ih, List.length_set]

theorem setFields_getElem?_of_notMem {fields : List (Nat × Byte)} {o : Nat} (h : o ∉ fields.map Prod.fst)
    (l : List Byte) : (setFields fields l)[o]? = l[o]? := by
  induction fields generalizing l with
  | nil => rfl
  | cons p fields ih =>
    rw [List.map_cons, List.mem_cons, not_or] at h
    rw [setFields_cons, ih h.2, List.getElem?_set_ne (Ne.symm h.1)]

/-- With distinct offsets every named byte is at its offset. -/
theorem setFields_getElem?_of_mem {fields : List (Nat × Byte)} {o : Nat} {v : Byte}
    (hnodup : (fields.map Prod.fst).Nodup) (h : (o, v) ∈ fields) {l : List Byte} (ho : o < l.length) :
    (setFields fields l)[o]? = some v := by
  induction fields generalizing l with
  | nil => cases h
  | cons p fields ih =>
    rw [List.map_cons, List.nodup_cons] at hnodup
    rw [setFields_cons]
    obtain rfl | h := List.mem_cons.mp h
    · rw [setFields_getElem?_of_notMem hnodup.1, List.getElem?_set_self ho]
    · exact ih hnodup.2 h (by rwa [List.length_set])

/-! ## The frame -/

theorem tframeHead_eq (fields : List (Nat × Byte)) :
    tframeHead fields = setFields fields (0x55#8 :: 0x2F#8 :: List.replicate 69 0#8) := rfl

theorem tframeHead_length (fields : List (Nat × Byte)) : (tframeHead fields).length = 71 := by
  rw [tframeHead_eq, setFields_length]
  rfl

/-- The last byte alone lies beyond the head. -/
theorem tframeBytes_getElem? {fields : List (Nat × Byte)} {o : Nat} (ho : o < 71) :
    (tframeBytes fields)[o]? = (tframeHead fields)[o]? :=
  List.getElem?_append_left (by rwa [tframeHead_length])

theorem tframeFieldsOk_iff (fields : List (Nat × Byte)) : tframeFieldsOk fields = true ↔
    (∀ p ∈ fields, 2 ≤ p.1 ∧ p.1 ≤ 70) ∧ (fields.map Prod.fst).Nodup := by
  simp [tframeFieldsOk]

/-- Offsets 0 and 1 cannot be named, so the sync byte and the tag stay. -/
theorem tframeBytes_getElem?_of_lt_two {fields : List (Nat × Byte)} (h : ∀ p ∈ fields, 2 ≤ p.1 ∧ p.1 ≤ 70) {o : Nat}
    (ho : o < 2) : (tframeBytes fields)[o]? = [0x55#8, 0x2F#8][o]? := by
  have hnot : o ∉ fields.map Prod.fst := fun hmem => by
    obtain ⟨p, hp, rfl⟩ := List.mem_map.mp hmem
    have := h p hp
    omega
  rw [tframeBytes_getElem? (by omega), tframeHead_eq, setFields_getElem?_of_notMem hnot]
  interval_cases o <;> rfl

theorem ck8_tframeBadBytes (fields : List (Nat × Byte)) : ck8 (tframeBadBytes fields) = 1#8 := by
  have h : ck8 (tframeHead fields) + ckbyte (tframeHead fields) = 0#8 := by
    simpa using ck8_append_ckbyte (tframeHead fields)
  rw [tframeBadBytes, ck8_append, ck8_cons, ck8_nil, BitVec.add_zero, ← BitVec.add_assoc, h]
  rfl

/-- Settles O7: the head has 71 bytes with every named one in place, and the last byte makes the sum. -/
theorem tframeMeetsTheChecksum : Obligations.TframeMeetsTheChecksum := by
  unfold Obligations.TframeMeetsTheChecksum
  intro fields h
  obtain ⟨hrange, hnodup⟩ := (tframeFieldsOk_iff fields).mp h
  refine ⟨by simp [tframeBytes, tframeHead_length], tframeBytes_getElem?_of_lt_two hrange (by decide),
    tframeBytes_getElem?_of_lt_two hrange (by decide), fun o v hmem => ?_,
    (ck8_eq_zero_iff _).mp (ck8_append_ckbyte _), by simp [tframeBadBytes, tframeHead_length], ?_⟩
  · obtain ⟨-, ho⟩ := hrange _ hmem
    rw [tframeBytes_getElem? (Nat.lt_succ_of_le ho)]
    exact setFields_getElem?_of_mem hnodup hmem (Nat.lt_succ_of_le ho)
  · rw [← ck8_toNat, ck8_tframeBadBytes]
    rfl

end Sys2Proof.Machine
end
